-- ==== Sys2Proof/Word.lean ====
section
/-! DEFINITION. The widths of the block's data paths (00_scope.md R10, R11). -/

namespace Sys2Proof

/-- A bus byte, a command word, a checksum: `u8`. -/
abbrev Byte := BitVec 8

/-- A wire code or a raw word: `u16`. -/
abbrev Word := BitVec 16

/-- A device address on the two-wire bus (20_memory.md R45). -/
abbrev BusAddress := BitVec 7

/-- Bits 15:8 of a word (00_scope.md R11). -/
def Word.high (w : Word) : Byte := w.extractLsb' 8 8

/-- Bits 7:0 of a word. -/
def Word.low (w : Word) : Byte := w.extractLsb' 0 8

end Sys2Proof
end

