-- ==== Sys2Proof/Config.lean ====
section
/-! DEFINITION. The parameters that 00_scope.md R9 marks "fixed by source". The periodic tables, which R9 marks
"parameter", are the field `rom` of State (Machine/Rom.lean gives their default). -/

namespace Sys2Proof.Config

/-- `DEVICE_ADDR`, a constant of the block and not a register (10_state.md R32). -/
def deviceAddr : BusAddress := 0x44#7

/-- `CRC_POLY`, x⁸+x⁵+x⁴+1 without its x⁸ term (41_checksum.md R87). -/
def crcPoly : Byte := 0x31#8

/-- `CRC_INIT`, the initial register (41_checksum.md R86). -/
def crcInit : Byte := 0xFF#8

/-- `N_RATES`: five discrete rates. -/
def nRates : Nat := 5

/-- `N_REPEATABILITIES`: low, medium, high. -/
def nRepeatabilities : Nat := 3

end Sys2Proof.Config
end

