-- ==== Sys2Proof/Machine/Checksum.lean ====
section
/-! DEFINITION. The Checksum Validator (41_checksum.md R86 to R89): CRC-8, most significant bit first. -/

namespace Sys2Proof.Machine

/-- One round of R87: the top bit is tested before the shift, and the polynomial goes in after it. -/
def crcRound (r : Byte) : Byte :=
  if r.getLsbD 7 then (r <<< 1) ^^^ Config.crcPoly else r <<< 1

/-- `n` rounds. -/
def crcRounds : Nat → Byte → Byte
  | 0, r => r
  | n + 1, r => crcRounds n (crcRound r)

/-- `crc_byte(reg, b)`: exclusive-or the byte in, then eight rounds (R87). -/
def crcByte (reg b : Byte) : Byte := crcRounds 8 (reg ^^^ b)

/-- `crc8(w)`: the high byte first, then the low byte, no final exclusive or (R86). -/
def crc8 (w : Word) : Byte := crcByte (crcByte Config.crcInit w.high) w.low

/-- The raw word of two received bytes, `b0 ++ b1` (30_encoding.md R68). -/
def rawWord (b0 b1 : Byte) : Word := b0 ++ b1

/-- The test of a received frame, `crc8(b0 ++ b1) == c` (R89). -/
def frameValid (b0 b1 c : Byte) : Bool := crc8 (rawWord b0 b1) == c

end Sys2Proof.Machine
end

