-- ==== Sys2Proof/Syntax.lean ====
section
/-! DEFINITION. The seven operations of the block (00_scope.md R3, 30_encoding.md R63), one constructor per row of
spec/opcode_table.json, and the two enumerations their operands stand for (R64). -/

namespace Sys2Proof

/-- One operation as the host's command word names it. `ignored` is bits 4:0 of the word of an operation without operands:
no behaviour on the bus depends on it (30_encoding.md R64), and accept latches it (42_sequencer.md R95; log entry 10).
`rate` and `rep` are plain unsigned indices; the legal ones are `Instr.WellFormed`. -/
inductive Instr where
  /-- `SOFT_RESET`, SoftReset (43_operations.md R116). -/
  | softReset (ignored : BitVec 5)
  /-- `SET_PERIODIC rate, rep`, SetPeriodicMode (R117). -/
  | setPeriodic (rate : BitVec 3) (rep : BitVec 2)
  /-- `FETCH`, FetchPeriodicData (R118). -/
  | fetch (ignored : BitVec 5)
  /-- `SINGLE_SHOT`, GetSingleShotData (R119). -/
  | singleShot (ignored : BitVec 5)
  /-- `READ_STATUS`, ReadStatusRegister (R120). -/
  | readStatus (ignored : BitVec 5)
  /-- `CLEAR_STATUS`, ClearStatusRegister (R121). -/
  | clearStatus (ignored : BitVec 5)
  /-- `BREAK`, Break (R122). -/
  | breakOp (ignored : BitVec 5)
  deriving DecidableEq, Repr

/-- AcquisitionRate, "enumerated {0.5, 1, 2, 4, 10} measurements/second, encoded 0..4" (30_encoding.md R64). -/
inductive AcquisitionRate where
  | mps0_5 | mps1 | mps2 | mps4 | mps10
  deriving DecidableEq, Repr

/-- Repeatability, "enumerated {low, medium, high}, encoded 0..2" (30_encoding.md R64). -/
inductive Repeatability where
  | low | medium | high
  deriving DecidableEq, Repr

/-- The 3-bit encoding of a rate. -/
def AcquisitionRate.code : AcquisitionRate → BitVec 3
  | .mps0_5 => 0
  | .mps1 => 1
  | .mps2 => 2
  | .mps4 => 3
  | .mps10 => 4

/-- The rate as measurements in ten seconds, so that 0.5 a second is a whole number. -/
def AcquisitionRate.perTenSeconds : AcquisitionRate → Nat
  | .mps0_5 => 5
  | .mps1 => 10
  | .mps2 => 20
  | .mps4 => 40
  | .mps10 => 100

/-- The 2-bit encoding of a repeatability. -/
def Repeatability.code : Repeatability → BitVec 2
  | .low => 0
  | .medium => 1
  | .high => 2

/-- The rate a 3-bit operand names: 5, 6 and 7 are not rates. -/
def AcquisitionRate.ofCode? (b : BitVec 3) : Option AcquisitionRate :=
  match b.toNat with
  | 0 => some .mps0_5
  | 1 => some .mps1
  | 2 => some .mps2
  | 3 => some .mps4
  | 4 => some .mps10
  | _ => none

/-- The repeatability a 2-bit operand names: 3 is not a repeatability. -/
def Repeatability.ofCode? (b : BitVec 2) : Option Repeatability :=
  match b.toNat with
  | 0 => some .low
  | 1 => some .medium
  | 2 => some .high
  | _ => none

/-- The mnemonics of 30_encoding.md R63. -/
def Instr.mnemonic : Instr → String
  | .softReset _ => "SOFT_RESET"
  | .setPeriodic _ _ => "SET_PERIODIC"
  | .fetch _ => "FETCH"
  | .singleShot _ => "SINGLE_SHOT"
  | .readStatus _ => "READ_STATUS"
  | .clearStatus _ => "CLEAR_STATUS"
  | .breakOp _ => "BREAK"

end Sys2Proof
end

