-- ==== Sys2Proof/WellFormed.lean ====
section
/-! DEFINITION. Which operations are legal: the pre-condition "repeatability∈{0,1,2}, rate∈{0..4}" of SetPeriodicMode
(30_encoding.md R71). The other six operations have no operand and are always legal. -/

namespace Sys2Proof

/-- The operand pair of a SetPeriodicMode is legal: not (`rate` > 4 or `rep` = 3) (R71). -/
def legalOperands (rate : BitVec 3) (rep : BitVec 2) : Bool :=
  !(decide (4 < rate.toNat) || decide (rep.toNat = 3))

/-- The operation may be run; an operation that is not well-formed raises `IllegalCommand` at accept (R71, R117). -/
def Instr.WellFormed : Instr → Bool
  | .softReset _ => true
  | .setPeriodic rate rep => legalOperands rate rep
  | .fetch _ => true
  | .singleShot _ => true
  | .readStatus _ => true
  | .clearStatus _ => true
  | .breakOp _ => true

end Sys2Proof
end

