-- ==== Sys2Proof/Decode.lean ====
section
/-! DEFINITION. The host's command word (30_encoding.md R62): `op` in bits 7:5, `rate` in bits 4:2, `rep` in bits 1:0.
The decoder first, then the encoder, both from the table of R63. -/

namespace Sys2Proof

/-- Why a list of bytes is no command. -/
inductive DecodeError where
  /-- There is no byte to decode. -/
  | noByte
  /-- `op` = 7, which R63 leaves reserved. -/
  | reservedOp
  deriving DecidableEq, Repr

/-- `cmd[7:5]` (R62). -/
def cmdOp (cmd : Byte) : BitVec 3 := cmd.extractLsb' 5 3

/-- `cmd[4:2]` (R62). -/
def cmdRate (cmd : Byte) : BitVec 3 := cmd.extractLsb' 2 3

/-- `cmd[1:0]` (R62). -/
def cmdRep (cmd : Byte) : BitVec 2 := cmd.extractLsb' 0 2

/-- The operation with the number `op` (R63); `rate` and `rep` are its operands where it has them and its ignored bits
where it has none. Number 7 is reserved. -/
def Instr.ofFields (op : BitVec 3) (rate : BitVec 3) (rep : BitVec 2) : Option Instr :=
  match op.toNat with
  | 0 => some (.softReset (rate ++ rep))
  | 1 => some (.setPeriodic rate rep)
  | 2 => some (.fetch (rate ++ rep))
  | 3 => some (.singleShot (rate ++ rep))
  | 4 => some (.readStatus (rate ++ rep))
  | 5 => some (.clearStatus (rate ++ rep))
  | 6 => some (.breakOp (rate ++ rep))
  | _ => none

/-- Decode the first byte and give back the rest. An illegal operand pair of SetPeriodicMode decodes: refusing it is the
operation's own effect (43_operations.md R117; log entry 9). -/
def decode : List Byte → Except DecodeError (Instr × List Byte)
  | [] => .error .noByte
  | cmd :: rest =>
    match Instr.ofFields (cmdOp cmd) (cmdRate cmd) (cmdRep cmd) with
    | some i => .ok (i, rest)
    | none => .error .reservedOp

/-- The operation number (R63). -/
def Instr.op : Instr → BitVec 3
  | .softReset _ => 0
  | .setPeriodic _ _ => 1
  | .fetch _ => 2
  | .singleShot _ => 3
  | .readStatus _ => 4
  | .clearStatus _ => 5
  | .breakOp _ => 6

/-- Bits 4:0 of the command word. -/
def Instr.operandBits : Instr → BitVec 5
  | .softReset ignored => ignored
  | .setPeriodic rate rep => rate ++ rep
  | .fetch ignored => ignored
  | .singleShot ignored => ignored
  | .readStatus ignored => ignored
  | .clearStatus ignored => ignored
  | .breakOp ignored => ignored

/-- The command word of an operation (R62, R63). -/
def Instr.cmd (i : Instr) : Byte := i.op ++ i.operandBits

/-- The bytes of an operation: one command word. -/
def encode (i : Instr) : List Byte := [i.cmd]

/-- The bytes of an opcode-table word of `nbits` bits: the block has one 8-bit format, so the word's low byte is the
command and every bit at or above `nbits` is 0. -/
def tableWordBytes (nbits w : Nat) : List Byte := [BitVec.ofNat 8 (w % 2 ^ nbits)]

/-- What the decoder reads from an opcode-table word. -/
def decodeTableWord (nbits w : Nat) : Option Instr :=
  match decode (tableWordBytes nbits w) with
  | .ok (i, _) => some i
  | .error _ => none

end Sys2Proof
end

