-- ==== Sys2Proof/Machine/Rom.lean ====
section
/-! DEFINITION. The Command Catalog, this spec's command ROM (20_memory.md R38 to R44): three read-only tables. -/

namespace Sys2Proof.Machine

/-- The two periodic tables, which are a parameter of the model (00_scope.md R9, 20_memory.md R41, R42): 5 high bytes
indexed by `rate`, 15 low bytes indexed by `rate*3 + rep`. -/
structure CommandRom where
  pmsb : Vector Byte 5
  plsb : Vector Byte 15
  deriving DecidableEq, Repr

/-- The default entries. PRESUMED: the spec itself has them from general knowledge (G1), see log entry 7. -/
def defaultRom : CommandRom where
  pmsb := #v[0x20#8, 0x21#8, 0x22#8, 0x23#8, 0x27#8]
  plsb := #v[0x2F#8, 0x24#8, 0x32#8,
             0x2D#8, 0x26#8, 0x30#8,
             0x2B#8, 0x20#8, 0x36#8,
             0x29#8, 0x22#8, 0x34#8,
             0x2A#8, 0x21#8, 0x37#8]

/-- `MemRead(CODE, op, 2)`, the fixed wire codes (20_memory.md R39). Number 1 has no entry (its code is assembled from the
periodic tables), and number 7 is no operation. -/
def codeEntry (op : BitVec 3) : Option Word :=
  match op.toNat with
  | 0 => some 0x30A2#16
  | 2 => some 0xE000#16
  | 3 => some 0x2C06#16
  | 4 => some 0xF32D#16
  | 5 => some 0x3041#16
  | 6 => some 0x3093#16
  | _ => none

/-- `MemRead(PMSB, rate, 1)` (20_memory.md R41). -/
def CommandRom.readPmsb (rom : CommandRom) (rate : Nat) : Option Byte := rom.pmsb[rate]?

/-- `MemRead(PLSB, index, 1)` (20_memory.md R42). -/
def CommandRom.readPlsb (rom : CommandRom) (index : Nat) : Option Byte := rom.plsb[index]?

/-- The command word is illegal (30_encoding.md R71): `op` = 7, or `op` = 1 with an operand out of range. -/
def illegalCommand (op : BitVec 3) (rate : BitVec 3) (rep : BitVec 2) : Bool :=
  decide (op = 7#3) || (decide (op = 1#3) && !legalOperands rate rep)

/-- The wire code of SetPeriodicMode, `PMSB[rate] ++ PLSB[rate*3 + rep]` (30_encoding.md R65). -/
def periodicCode (rom : CommandRom) (rate : BitVec 3) (rep : BitVec 2) : Option Word :=
  match rom.readPmsb rate.toNat, rom.readPlsb (rate.toNat * 3 + rep.toNat) with
  | some high, some low => some (high ++ low)
  | _, _ => none

/-- `wire_code(op, rate, rep)` (30_encoding.md R65) of a legal command; an illegal one has none, and no table is read
for it (R71). -/
def wireCode (rom : CommandRom) (op : BitVec 3) (rate : BitVec 3) (rep : BitVec 2) : Option Word :=
  if illegalCommand op rate rep then none
  else if op = 1#3 then periodicCode rom rate rep
  else codeEntry op

end Sys2Proof.Machine
end

