-- ==== Sys2Proof/Machine/State.lean ====
section
/-! DEFINITION. The state of one instance of the block (10_state.md R18), as plain data, and its reset value (R37). -/

namespace Sys2Proof.Machine

/-- The micro-state register `upc` (10_state.md R24): the action the sequencer performs next. The encoding 15 is no
state of the model (70_reset_and_hazards.md R144). -/
inductive Upc where
  | idle | wStart | wAddr | wMsb | wLsb | midStop | rStart | rAddr | rB0 | rB1 | rCrc | check | finalStop | done | failed
  deriving DecidableEq, Repr

/-- One completed call on the Bus Capability with its argument and its result, an entry of the bus trace
(00_scope.md R13). -/
inductive BusCall where
  /-- `S`. -/
  | start
  /-- `P`. -/
  | stop
  /-- `AW(address)=ack`. -/
  | addressWrite (address : BusAddress) (ack : Bool)
  /-- `AR(address)=ack`. -/
  | addressRead (address : BusAddress) (ack : Bool)
  /-- `W(byte)=ack`. -/
  | data (byte : Byte) (ack : Bool)
  /-- `R(ackToSend)=byte`. -/
  | read (ackToSend : Bool) (byte : Byte)
  deriving DecidableEq, Repr

/-- What the outside drives on the block's inputs in one step: the host's `rst`, `cmd_valid` and `cmd` (10_state.md R30)
and the environment's `bus_rsp`, `bus_ack_in` and `bus_rdata` (40_bus_primitives.md R85). -/
structure Input where
  rst : Bool
  cmdValid : Bool
  cmd : Byte
  busRsp : Bool
  busAckIn : Bool
  busRdata : Byte
  deriving DecidableEq, Repr

/-- A step in which nobody outside does anything. -/
def Input.quiet : Input where
  rst := false
  cmdValid := false
  cmd := 0
  busRsp := false
  busAckIn := false
  busRdata := 0

/-- The state. The first sixteen fields are the registers of 10_state.md R18, under its names. -/
structure State where
  /-- `T` = `x[0]`, last_temperature. -/
  t : Word
  /-- `RH` = `x[1]`, last_humidity. -/
  rh : Word
  /-- `ST` = `x[2]`, last_status. -/
  st : Word
  /-- `upc`. -/
  upc : Upc
  /-- `op_r`. -/
  opR : BitVec 3
  /-- `rate_r`. -/
  rateR : BitVec 3
  /-- `rep_r`. -/
  repR : BitVec 2
  /-- `code_r`. -/
  codeR : Word
  /-- `fail`: the operation has aborted and its closing stop is still owed (R28). -/
  fail : Bool
  /-- `widx`: index of the word being read. -/
  widx : BitVec 1
  /-- `b0`: first data byte of the word being read. -/
  b0 : Byte
  /-- `b1`: second data byte. -/
  b1 : Byte
  /-- `c`: the checksum byte received after them. -/
  c : Byte
  /-- `stage[0]`. -/
  stage0 : Word
  /-- `stage[1]`. -/
  stage1 : Word
  /-- `crc`: working register of the Checksum Validator (R35). -/
  crc : Byte
  /-- The periodic tables: configuration that no step writes (00_scope.md R17, log entry 7). -/
  rom : CommandRom
  /-- `BT`, the calls made since reset, oldest first: observation, not hardware (00_scope.md R13, log entry 4). -/
  trace : List BusCall
  /-- What the outside drives in the coming steps, the next step first; a step past the end is quiet (log entry 2). -/
  inputs : List Input
  deriving DecidableEq, Repr

/-- Why a step stops. -/
inductive Fault where
  /-- Raised by `step` when the block is busy and `op_r` holds the reserved number 7. No rule of the spec reaches such a
  state and none says what it does (log entry 11). Safe: the model stops where the spec gives no effect. -/
  | reservedOperationRunning
  deriving DecidableEq, Repr

/-- Why an instruction has no meaning. -/
inductive Refusal where
  /-- Raised by `exec` for an operation that has no meaning yet. Safe: the model stops. No arm uses it. -/
  | notModelled (mnemonic : String)
  deriving DecidableEq, Repr

/-- The state after reset (10_state.md R37, 70_reset_and_hazards.md R142), with the default tables, an empty trace and a
quiet outside. DESIGN CHOICE: `crc`, whose reset value R37 leaves unspecified, is 0 (log entry 5). -/
def State.reset : State where
  t := 0
  rh := 0
  st := 0
  upc := .idle
  opR := 0
  rateR := 0
  repR := 0
  codeR := 0
  fail := false
  widx := 0
  b0 := 0
  b1 := 0
  c := 0
  stage0 := 0
  stage1 := 0
  crc := 0
  rom := defaultRom
  trace := []
  inputs := []

end Sys2Proof.Machine
end

