-- ==== Sys2Proof/Machine/Flags.lean ====
section
/-! DEFINITION. What is a function of the micro-state: the host-visible flags (10_state.md R27), the open bracket (R36 (b)),
the encoding of `upc` (R24), and the end of an operation (70_reset_and_hazards.md R154). -/

namespace Sys2Proof.Machine

/-- The 4-bit encoding of `upc` (10_state.md R24). It is never observable. -/
def Upc.code : Upc → BitVec 4
  | .idle => 0
  | .wStart => 1
  | .wAddr => 2
  | .wMsb => 3
  | .wLsb => 4
  | .midStop => 5
  | .rStart => 6
  | .rAddr => 7
  | .rB0 => 8
  | .rB1 => 9
  | .rCrc => 10
  | .check => 11
  | .finalStop => 12
  | .done => 13
  | .failed => 14

/-- `busy`: `upc` is none of `IDLE`, `DONE`, `FAILED` (R27). -/
def Upc.busy : Upc → Bool
  | .idle => false
  | .done => false
  | .failed => false
  | .wStart => true
  | .wAddr => true
  | .wMsb => true
  | .wLsb => true
  | .midStop => true
  | .rStart => true
  | .rAddr => true
  | .rB0 => true
  | .rB1 => true
  | .rCrc => true
  | .check => true
  | .finalStop => true

/-- The output `busy` (R27). -/
def State.busy (s : State) : Bool := s.upc.busy

/-- The output `done`: `upc` is `DONE` or `FAILED` (R27). -/
def State.done (s : State) : Bool := s.upc == .done || s.upc == .failed

/-- The output `ok`: `upc` is `DONE` (R27). -/
def State.ok (s : State) : Bool := s.upc == .done

/-- An operation is over when `upc` is `DONE` or `FAILED` (70_reset_and_hazards.md R154). -/
def State.operationOver (s : State) : Bool := s.done

end Sys2Proof.Machine
end

