-- ==== Sys2Proof/Machine/Operands.lean ====
section
/-! DEFINITION. What an operation is to the sequencer (42_sequencer.md R94): its number and operand bits, how many words it
reads back, whether a stop separates its two phases, and what it commits. Each operation's own values stand beside its meaning,
in WriteOnly.lean and Reads.lean. -/

namespace Sys2Proof.Machine

/-- Which Sensor State registers an operation commits (10_state.md R20, 42_sequencer.md R108). -/
inductive Commit where
  /-- `T <- stage[0]`, `RH <- stage[1]`. -/
  | temperatureAndHumidity
  /-- `ST <- stage[0]`. -/
  | status
  /-- Nothing: "no state stored". -/
  | nothing
  deriving DecidableEq, Repr

/-- The parameters of one operation. -/
structure Operation where
  /-- Operation number, latched in `op_r`. -/
  op : BitVec 3
  /-- `cmd[4:2]`, latched in `rate_r`. -/
  rate : BitVec 3
  /-- `cmd[1:0]`, latched in `rep_r`. -/
  rep : BitVec 2
  /-- `K`, the number of 16-bit words read back. -/
  words : Nat
  /-- `MIDSTOP`, a stop separates the write phase from the read phase. -/
  midStop : Bool
  /-- What a success commits. -/
  commit : Commit
  deriving DecidableEq, Repr

/-- Bits 4:2 of an operation's ignored bits, which accept latches in `rate_r` (42_sequencer.md R95). -/
def ignoredRate (ignored : BitVec 5) : BitVec 3 := ignored.extractLsb' 2 3

/-- Bits 1:0 of an operation's ignored bits, which accept latches in `rep_r` (R95). -/
def ignoredRep (ignored : BitVec 5) : BitVec 2 := ignored.extractLsb' 0 2

/-- The running operation, read back from the command register `op_r`, `rate_r`, `rep_r` (10_state.md R31). -/
def State.latched (s : State) : Option Instr := Instr.ofFields s.opR s.rateR s.repR

/-- More values follow the one being read: `widx + 1 < K` (30_encoding.md R69). The sum is taken as a number. -/
def State.moreFollow (s : State) (words : Nat) : Bool := decide (s.widx.toNat + 1 < words)

end Sys2Proof.Machine
end

