-- ==== Sys2Proof/Machine/Ops.lean ====
section
/-! DEFINITION. The shared operations: sampling the inputs, the six bus calls, raising a failure, accepting a command,
staging a word, the commit, the reset action. -/

namespace Sys2Proof.Machine

/-- What the outside drives in this step; quiet when nothing more is scripted (log entry 2). -/
def State.input (s : State) : Input :=
  match s.inputs with
  | [] => .quiet
  | i :: _ => i

/-- The step has sampled its inputs. Nothing else changes. -/
def State.consume (s : State) : State := { s with inputs := s.inputs.tail }

/-- Append one completed call to the bus trace. -/
def State.record (s : State) (call : BusCall) : State := { s with trace := s.trace ++ [call] }

/-! ### The six calls of the Bus Capability (40_bus_primitives.md R76 to R81)

Each call stays outstanding, with the state unchanged, in a step in which the environment does not answer (R82, U7), and
goes on with `next` in the step in which it does. -/

/-- `start()` (R76). -/
def busStart (s : State) (next : State → State) : State :=
  if s.input.busRsp then next (s.consume.record .start) else s.consume

/-- `stop()` (R77). -/
def busStop (s : State) (next : State → State) : State :=
  if s.input.busRsp then next (s.consume.record .stop) else s.consume

/-- `send_address_write(address) -> ack` (R78). -/
def busSendAddressWrite (address : BusAddress) (s : State) (next : Bool → State → State) : State :=
  if s.input.busRsp then next s.input.busAckIn (s.consume.record (.addressWrite address s.input.busAckIn)) else s.consume

/-- `send_address_read(address) -> ack` (R79). -/
def busSendAddressRead (address : BusAddress) (s : State) (next : Bool → State → State) : State :=
  if s.input.busRsp then next s.input.busAckIn (s.consume.record (.addressRead address s.input.busAckIn)) else s.consume

/-- `send_data(byte) -> ack` (R80). -/
def busSendData (byte : Byte) (s : State) (next : Bool → State → State) : State :=
  if s.input.busRsp then next s.input.busAckIn (s.consume.record (.data byte s.input.busAckIn)) else s.consume

/-- `read_data(ack_to_send) -> byte` (R81). -/
def busReadData (ackToSend : Bool) (s : State) (next : Byte → State → State) : State :=
  if s.input.busRsp then next s.input.busRdata (s.consume.record (.read ackToSend s.input.busRdata)) else s.consume

/-! ### Failures (60_exceptions.md) -/

/-- The three causes (R124). What each carries is a label for the reader: nothing of it is stored (R128). -/
inductive Exception where
  /-- The call of that micro-state was not acknowledged. -/
  | busNack (at_ : Upc)
  /-- The word with that index failed its check. -/
  | checksumMismatch (word : BitVec 1)
  /-- The command word is outside the legal set. -/
  | illegalCommand (op : BitVec 3) (rate : BitVec 3) (rep : BitVec 2)
  deriving DecidableEq, Repr

/-- Raising a failure (00_scope.md R12, 60_exceptions.md R125 to R127, R131): `BusNack` and `ChecksumMismatch` set `fail` and
go to the closing stop; `IllegalCommand` goes straight to `FAILED` with `fail` as accept left it, since no stop is owed. Nothing
is saved. There is no return: `FAILED` is terminal (R133). -/
def raise (e : Exception) (s : State) : State :=
  match e with
  | .busNack _ => { s with fail := true, upc := .finalStop }
  | .checksumMismatch _ => { s with fail := true, upc := .finalStop }
  | .illegalCommand _ _ _ => { s with upc := .failed }

/-! ### Command accept (42_sequencer.md R95) -/

/-- The first two lines of accept: latch the operation number and the operand bits, clear `fail` and `widx`. -/
def latchCommand (op : BitVec 3) (rate : BitVec 3) (rep : BitVec 2) (s : State) : State :=
  { s with opR := op, rateR := rate, repR := rep, fail := false, widx := 0 }

/-- Command accept, the whole of R95 in one step: an illegal command raises `IllegalCommand` with `code_r` unchanged and no
bus call; a legal one latches its wire code and goes to `W_START`. -/
def acceptCommand (op : BitVec 3) (rate : BitVec 3) (rep : BitVec 2) (s : State) : State :=
  match wireCode s.rom op rate rep with
  | none => raise (.illegalCommand op rate rep) (latchCommand op rate rep s.consume)
  | some code => { latchCommand op rate rep s.consume with codeR := code, upc := .wStart }

/-! ### Staging, commit, reset -/

/-- `stage[widx] <- w` (42_sequencer.md R106). -/
def stageWord (w : Word) (s : State) : State :=
  if s.widx = 0#1 then { s with stage0 := w } else { s with stage1 := w }

/-- The commit (42_sequencer.md R108): all of an operation's words in one step. -/
def commitWords (commit : Commit) (s : State) : State :=
  match commit with
  | .temperatureAndHumidity => { s with t := s.stage0, rh := s.stage1 }
  | .status => { s with st := s.stage0 }
  | .nothing => s

/-- The reset action (70_reset_and_hazards.md R142, R143): every register at its reset value, no call made, a new trace. The
tables are configuration and stay. -/
def resetBlock (s : State) : State :=
  { State.reset with rom := s.rom, inputs := s.inputs.tail }

/-! ### What the host and the environment drive -/

/-- The input vector of a host that offers the command word `cmd` while nothing else happens. -/
def Input.offer (cmd : Byte) : Input := { Input.quiet with cmdValid := true, cmd := cmd }

/-- The input vector of an environment that completes the outstanding call with the acknowledge `ack` or the byte `byte`,
whichever the call returns. -/
def Input.reply (ack : Bool) (byte : Byte) : Input := { Input.quiet with busRsp := true, busAckIn := ack, busRdata := byte }

/-- The bytes of the offered command: one command word. -/
def offeredBytes (s : State) : List Byte := [s.input.cmd]

/-- An offered word that decodes to no operation has the reserved number 7, and accept raises `IllegalCommand` for it
(30_encoding.md R71). -/
def acceptReserved (s : State) : State :=
  acceptCommand (cmdOp s.input.cmd) (cmdRate s.input.cmd) (cmdRep s.input.cmd) s

/-- `IDLE`, `DONE` and `FAILED` with `cmd_valid` = 0: nothing changes (42_sequencer.md R95, R109). -/
def waitForCommand (s : State) : State := s.consume

end Sys2Proof.Machine
end

