-- ==== Sys2Proof/Machine/MicroStep.lean ====
section
/-! DEFINITION. The micro-steps of an operation, one definition per micro-state that acts (42_sequencer.md R95 to R109). -/

namespace Sys2Proof.Machine

/-- `W_START` (R96). -/
def stepWStart (s : State) : State :=
  busStart s fun s => { s with upc := .wAddr }

/-- `W_ADDR` (R97). -/
def stepWAddr (s : State) : State :=
  busSendAddressWrite Config.deviceAddr s fun ack s =>
    if ack then { s with upc := .wMsb } else raise (.busNack .wAddr) s

/-- `W_MSB` (R98): the high byte of the wire code. -/
def stepWMsb (s : State) : State :=
  busSendData s.codeR.high s fun ack s =>
    if ack then { s with upc := .wLsb } else raise (.busNack .wMsb) s

/-- Where a fully acknowledged write phase goes on (R99). -/
def afterWritePhase (o : Operation) : Upc :=
  if o.words = 0 then .finalStop else if o.midStop then .midStop else .rStart

/-- `W_LSB` (R99): the low byte of the wire code. -/
def stepWLsb (o : Operation) (s : State) : State :=
  busSendData s.codeR.low s fun ack s =>
    if ack then { s with upc := afterWritePhase o } else raise (.busNack .wLsb) s

/-- `MID_STOP` (R100): the intermediate stop. The block adds no delay of its own. -/
def stepMidStop (s : State) : State :=
  busStop s fun s => { s with upc := .rStart }

/-- `R_START` (R101). -/
def stepRStart (s : State) : State :=
  busStart s fun s => { s with upc := .rAddr }

/-- `R_ADDR` (R102). -/
def stepRAddr (s : State) : State :=
  busSendAddressRead Config.deviceAddr s fun ack s =>
    if ack then { s with upc := .rB0 } else raise (.busNack .rAddr) s

/-- `R_B0` (R103). -/
def stepRB0 (s : State) : State :=
  busReadData true s fun byte s => { s with b0 := byte, upc := .rB1 }

/-- `R_B1` (R104). -/
def stepRB1 (s : State) : State :=
  busReadData true s fun byte s => { s with b1 := byte, upc := .rCrc }

/-- `R_CRC` (R105): acknowledged only if more values follow. -/
def stepRCrc (o : Operation) (s : State) : State :=
  busReadData (s.moreFollow o.words) s fun byte s => { s with c := byte, upc := .check }

/-- The validator runs over the received word and leaves its result in `crc` (10_state.md R35). -/
def runChecksum (s : State) : State := { s with crc := crc8 (rawWord s.b0 s.b1) }

/-- A word has passed its check (R106): stage it, then read the next word or close. -/
def wordValid (o : Operation) (s : State) : State :=
  let staged := stageWord (rawWord s.b0 s.b1) s
  if s.moreFollow o.words then { staged with widx := s.widx + 1, upc := .rB0 } else { staged with upc := .finalStop }

/-- `CHECK` (R106): no bus call; it steps whatever the inputs are. -/
def stepCheck (o : Operation) (s : State) : State :=
  let checked := runChecksum s.consume
  if checked.crc = s.c then wordValid o checked else raise (.checksumMismatch s.widx) checked

/-- `FINAL_STOP` (R107): the closing stop, and the commit in the same step when nothing has failed. -/
def stepFinalStop (o : Operation) (s : State) : State :=
  busStop s fun s =>
    if s.fail then { s with upc := .failed } else { commitWords o.commit s with upc := .done }

/-- One micro-step of the operation `o`: accept it when the block is not busy, else act as the micro-state says. -/
def microStep (o : Operation) (s : State) : State :=
  match s.upc with
  | .idle => acceptCommand o.op o.rate o.rep s
  | .done => acceptCommand o.op o.rate o.rep s
  | .failed => acceptCommand o.op o.rate o.rep s
  | .wStart => stepWStart s
  | .wAddr => stepWAddr s
  | .wMsb => stepWMsb s
  | .wLsb => stepWLsb o s
  | .midStop => stepMidStop s
  | .rStart => stepRStart s
  | .rAddr => stepRAddr s
  | .rB0 => stepRB0 s
  | .rB1 => stepRB1 s
  | .rCrc => stepRCrc o s
  | .check => stepCheck o s
  | .finalStop => stepFinalStop o s

end Sys2Proof.Machine
end

