-- ==== Sys2Proof/Machine/Reads.lean ====
section
/-! DEFINITION. The three operations that read checksummed words back (42_sequencer.md R92 item 4, R94): each meaning is the
operation's micro-step, with the operation's own parameters. -/

namespace Sys2Proof.Machine

/-- FetchPeriodicData (43_operations.md R118): op 2, K = 2, no intermediate stop, commits `T` and `RH`. -/
def fetchOperation (ignored : BitVec 5) : Operation where
  op := 2
  rate := ignoredRate ignored
  rep := ignoredRep ignored
  words := 2
  midStop := false
  commit := .temperatureAndHumidity

/-- `FETCH` (R118). -/
def execFetch (ignored : BitVec 5) (s : State) : Host.Outcome State Fault Refusal :=
  .next (microStep (fetchOperation ignored) s)

/-- GetSingleShotData (43_operations.md R119): op 3, K = 2, a stop between the phases, commits `T` and `RH`. -/
def singleShotOperation (ignored : BitVec 5) : Operation where
  op := 3
  rate := ignoredRate ignored
  rep := ignoredRep ignored
  words := 2
  midStop := true
  commit := .temperatureAndHumidity

/-- `SINGLE_SHOT` (R119). -/
def execSingleShot (ignored : BitVec 5) (s : State) : Host.Outcome State Fault Refusal :=
  .next (microStep (singleShotOperation ignored) s)

/-- ReadStatusRegister (43_operations.md R120): op 4, K = 1, no intermediate stop, commits `ST`. -/
def readStatusOperation (ignored : BitVec 5) : Operation where
  op := 4
  rate := ignoredRate ignored
  rep := ignoredRep ignored
  words := 1
  midStop := false
  commit := .status

/-- `READ_STATUS` (R120). -/
def execReadStatus (ignored : BitVec 5) (s : State) : Host.Outcome State Fault Refusal :=
  .next (microStep (readStatusOperation ignored) s)

end Sys2Proof.Machine
end

