-- ==== Sys2Proof/Machine/WriteOnly.lean ====
section
/-! DEFINITION. The four operations that read nothing back (42_sequencer.md R92 item 3, R94): each meaning is the
operation's micro-step, with the operation's own parameters. -/

namespace Sys2Proof.Machine

/-- SoftReset (43_operations.md R116): op 0, K = 0, nothing committed. It resets the device, not the block. -/
def softResetOperation (ignored : BitVec 5) : Operation where
  op := 0
  rate := ignoredRate ignored
  rep := ignoredRep ignored
  words := 0
  midStop := false
  commit := .nothing

/-- `SOFT_RESET` (R116). -/
def execSoftReset (ignored : BitVec 5) (s : State) : Host.Outcome State Fault Refusal :=
  .next (microStep (softResetOperation ignored) s)

/-- SetPeriodicMode (43_operations.md R117): op 1, K = 0, nothing committed. -/
def setPeriodicOperation (rate : BitVec 3) (rep : BitVec 2) : Operation where
  op := 1
  rate := rate
  rep := rep
  words := 0
  midStop := false
  commit := .nothing

/-- `SET_PERIODIC rate, rep` (R117). Operands out of range raise `IllegalCommand` at accept. -/
def execSetPeriodic (rate : BitVec 3) (rep : BitVec 2) (s : State) : Host.Outcome State Fault Refusal :=
  .next (microStep (setPeriodicOperation rate rep) s)

/-- ClearStatusRegister (43_operations.md R121): op 5, K = 0, nothing committed; `ST` keeps its value. -/
def clearStatusOperation (ignored : BitVec 5) : Operation where
  op := 5
  rate := ignoredRate ignored
  rep := ignoredRep ignored
  words := 0
  midStop := false
  commit := .nothing

/-- `CLEAR_STATUS` (R121). -/
def execClearStatus (ignored : BitVec 5) (s : State) : Host.Outcome State Fault Refusal :=
  .next (microStep (clearStatusOperation ignored) s)

/-- Break (43_operations.md R122): op 6, K = 0, nothing committed. -/
def breakOperation (ignored : BitVec 5) : Operation where
  op := 6
  rate := ignoredRate ignored
  rep := ignoredRep ignored
  words := 0
  midStop := false
  commit := .nothing

/-- `BREAK` (R122). -/
def execBreakOp (ignored : BitVec 5) (s : State) : Host.Outcome State Fault Refusal :=
  .next (microStep (breakOperation ignored) s)

end Sys2Proof.Machine
end

