-- ==== Sys2Proof/Machine/Dispatch.lean ====
section
/-! DEFINITION. One arm per operation: what it does in one step. -/

namespace Sys2Proof.Machine

def exec (i : Instr) (s : State) : Host.Outcome State Fault Refusal :=
  match i with
  | .softReset ignored => Sys2Proof.Machine.execSoftReset ignored s
  | .setPeriodic rate rep => Sys2Proof.Machine.execSetPeriodic rate rep s
  | .fetch ignored => Sys2Proof.Machine.execFetch ignored s
  | .singleShot ignored => Sys2Proof.Machine.execSingleShot ignored s
  | .readStatus ignored => Sys2Proof.Machine.execReadStatus ignored s
  | .clearStatus ignored => Sys2Proof.Machine.execClearStatus ignored s
  | .breakOp ignored => Sys2Proof.Machine.execBreakOp ignored s

end Sys2Proof.Machine
end

