-- ==== Sys2Proof/Machine/Step.lean ====
section
/-! DEFINITION. One step of the block (42_sequencer.md R93): it samples one input vector and fires one micro-step. -/

namespace Sys2Proof.Machine

/-- The step relation. `rst` overrides everything (70_reset_and_hazards.md R142). A busy block goes on with the operation in
its command register, whatever the host offers (10_state.md R31). A block that is not busy accepts an offered command (R95), or
waits. -/
def step (s : State) : Host.Outcome State Fault Refusal :=
  if s.input.rst then .next (resetBlock s)
  else if s.busy then
    match s.latched with
    | some i => exec i s
    | none => .fault .reservedOperationRunning
  else if s.input.cmdValid then
    match decode (offeredBytes s) with
    | .ok (i, _) => exec i s
    | .error _ => .next (acceptReserved s)
  else .next (waitForCommand s)

/-- `s` with the command word `w` offered in the very next step, and with the block ready to accept it: a busy block would
ignore the offer, so there `upc` is `IDLE` (log entry 3). -/
def State.withFetchWord (s : State) (nbits w : Nat) : State :=
  { s with
    upc := if s.busy then .idle else s.upc
    inputs := (tableWordBytes nbits w).map Input.offer ++ s.inputs }

end Sys2Proof.Machine
end

