-- ==== Sys2Proof/Machine/Assembler.lean ====
section
/-! DEFINITION. The program syntax of 30_encoding.md R74: one operation a line, as the words of the line (log entry 18). -/

namespace Sys2Proof.Machine

/-- `<rate>`: a decimal 0..4 or a name. -/
def parseRate (token : String) : Option AcquisitionRate :=
  if token = "0" then some .mps0_5
  else if token = "1" then some .mps1
  else if token = "2" then some .mps2
  else if token = "3" then some .mps4
  else if token = "4" then some .mps10
  else if token = "MPS_0_5" then some .mps0_5
  else if token = "MPS_1" then some .mps1
  else if token = "MPS_2" then some .mps2
  else if token = "MPS_4" then some .mps4
  else if token = "MPS_10" then some .mps10
  else none

/-- `<rep>`: a decimal 0..2 or a name. -/
def parseRep (token : String) : Option Repeatability :=
  if token = "0" then some .low
  else if token = "1" then some .medium
  else if token = "2" then some .high
  else if token = "LOW" then some .low
  else if token = "MEDIUM" then some .medium
  else if token = "HIGH" then some .high
  else none

/-- The operation without operands that a mnemonic names, with its ignored bits zero. -/
def parsePlain (token : String) : Option Instr :=
  if token = "SOFT_RESET" then some (.softReset 0)
  else if token = "FETCH" then some (.fetch 0)
  else if token = "SINGLE_SHOT" then some (.singleShot 0)
  else if token = "READ_STATUS" then some (.readStatus 0)
  else if token = "CLEAR_STATUS" then some (.clearStatus 0)
  else if token = "BREAK" then some (.breakOp 0)
  else none

/-- One line, split into its words: the mnemonic, and for `SET_PERIODIC` the rate and the repeatability. -/
def parseLine : List String → Option Instr
  | [token] => parsePlain token
  | [token, rate, rep] =>
    if token = "SET_PERIODIC" then
      match parseRate rate, parseRep rep with
      | some r, some p => some (.setPeriodic r.code p.code)
      | _, _ => none
    else none
  | _ => none

/-- A program: its lines in order, or none if one of them is no line of the syntax. -/
def assemble : List (List String) → Option (List Byte)
  | [] => some []
  | line :: rest =>
    match parseLine line, assemble rest with
    | some i, some bytes => some (encode i ++ bytes)
    | _, _ => none

end Sys2Proof.Machine
end

