-- ==== Sys2Proof/Machine/Ports.lean ====
section
/-! DEFINITION. What can be read off the state: the parameters of the running operation, the host outputs (10_state.md R30),
the bus port (40_bus_primitives.md R85), the open bracket (10_state.md R36), the document's named state (R25). -/

namespace Sys2Proof.Machine

/-- The parameters of an operation, as its meaning uses them (42_sequencer.md R94). -/
def operationOf : Instr → Operation
  | .softReset ignored => softResetOperation ignored
  | .setPeriodic rate rep => setPeriodicOperation rate rep
  | .fetch ignored => fetchOperation ignored
  | .singleShot ignored => singleShotOperation ignored
  | .readStatus ignored => readStatusOperation ignored
  | .clearStatus ignored => clearStatusOperation ignored
  | .breakOp ignored => breakOperation ignored

/-- `K(op_r)`; the reserved number reads no words. -/
def State.words (s : State) : Nat :=
  match s.latched with
  | some i => (operationOf i).words
  | none => 0

/-- `MIDSTOP(op_r)`. -/
def State.midStopBetween (s : State) : Bool :=
  match s.latched with
  | some i => (operationOf i).midStop
  | none => false

/-! ### The host outputs -/

/-- The Sensor State (10_state.md R19). -/
structure SensorState where
  lastTemperature : Word
  lastHumidity : Word
  lastStatus : Word
  deriving DecidableEq, Repr

/-- The three registers as one value. -/
def State.sensor (s : State) : SensorState := ⟨s.t, s.rh, s.st⟩

/-- `x[i]` (00_scope.md R12). -/
def State.x (s : State) (i : Fin 3) : Word :=
  match i with
  | 0 => s.t
  | 1 => s.rh
  | 2 => s.st

/-- The output ports of the host side (10_state.md R30). -/
structure HostOutputs where
  busy : Bool
  done : Bool
  ok : Bool
  temperature : Word
  humidity : Word
  status : Word
  deriving DecidableEq, Repr

/-- What the host reads in any step (R27, R30). -/
def State.hostOutputs (s : State) : HostOutputs where
  busy := s.busy
  done := s.done
  ok := s.ok
  temperature := s.t
  humidity := s.rh
  status := s.st

/-! ### The bus port -/

/-- A call with its operands, outstanding on the bus port. -/
inductive BusRequest where
  | start
  | stop
  | sendAddressWrite (address : BusAddress)
  | sendAddressRead (address : BusAddress)
  | sendData (byte : Byte)
  | readData (ackToSend : Bool)
  deriving DecidableEq, Repr

/-- `bus_kind` (R85); 6 and 7 are never driven. -/
def BusRequest.kind : BusRequest → BitVec 3
  | .start => 0
  | .stop => 1
  | .sendAddressWrite _ => 2
  | .sendAddressRead _ => 3
  | .sendData _ => 4
  | .readData _ => 5

/-- `bus_wdata` where it means something (R85): the address with bit 7 zero, or the byte. -/
def BusRequest.wdata : BusRequest → Option Byte
  | .start => none
  | .stop => none
  | .sendAddressWrite address => some (0#1 ++ address)
  | .sendAddressRead address => some (0#1 ++ address)
  | .sendData byte => some byte
  | .readData _ => none

/-- `bus_ack_out` where it means something (R85). -/
def BusRequest.ackOut : BusRequest → Option Bool
  | .start => none
  | .stop => none
  | .sendAddressWrite _ => none
  | .sendAddressRead _ => none
  | .sendData _ => none
  | .readData ackToSend => some ackToSend

/-- The trace entry of a request that the environment completes with the inputs `i`. -/
def BusRequest.completed (q : BusRequest) (i : Input) : BusCall :=
  match q with
  | .start => .start
  | .stop => .stop
  | .sendAddressWrite address => .addressWrite address i.busAckIn
  | .sendAddressRead address => .addressRead address i.busAckIn
  | .sendData byte => .data byte i.busAckIn
  | .readData ackToSend => .read ackToSend i.busRdata

/-- The outstanding call, by the table of 10_state.md R24: `bus_req` is 1 exactly when there is one. -/
def State.busRequest (s : State) : Option BusRequest :=
  match s.upc with
  | .idle => none
  | .wStart => some .start
  | .wAddr => some (.sendAddressWrite Config.deviceAddr)
  | .wMsb => some (.sendData s.codeR.high)
  | .wLsb => some (.sendData s.codeR.low)
  | .midStop => some .stop
  | .rStart => some .start
  | .rAddr => some (.sendAddressRead Config.deviceAddr)
  | .rB0 => some (.readData true)
  | .rB1 => some (.readData true)
  | .rCrc => some (.readData (s.moreFollow s.words))
  | .check => none
  | .finalStop => some .stop
  | .done => none
  | .failed => none

/-- A bracket is open on the bus (10_state.md R36 (b)). -/
def State.bracketOpen (s : State) : Bool :=
  match s.upc with
  | .idle => false
  | .wStart => false
  | .wAddr => true
  | .wMsb => true
  | .wLsb => true
  | .midStop => true
  | .rStart => !s.midStopBetween
  | .rAddr => true
  | .rB0 => true
  | .rB1 => true
  | .rCrc => true
  | .check => true
  | .finalStop => true
  | .done => false
  | .failed => false

/-! ### The document's state machine -/

/-- The source's operation-level states (42_sequencer.md R92). -/
inductive DocState where
  | idle | addressPhase | commandBytesSent | readAddressPhase | dataRead | checksumChecked | done | failed
  deriving DecidableEq, Repr

/-- The document's state, the last milestone passed (10_state.md R25). -/
def State.docState (s : State) : DocState :=
  match s.upc with
  | .idle => .idle
  | .wStart => .idle
  | .wAddr => .idle
  | .wMsb => .addressPhase
  | .wLsb => .addressPhase
  | .midStop => .commandBytesSent
  | .rStart => .commandBytesSent
  | .rAddr => .commandBytesSent
  | .rB0 => if s.widx = 0#1 then .readAddressPhase else .checksumChecked
  | .rB1 => if s.widx = 0#1 then .readAddressPhase else .checksumChecked
  | .rCrc => if s.widx = 0#1 then .readAddressPhase else .checksumChecked
  | .check => .dataRead
  | .finalStop => if s.fail then .failed else if s.words = 0 then .commandBytesSent else .checksumChecked
  | .done => .done
  | .failed => .failed

end Sys2Proof.Machine
end

