-- ==== Sys2Proof/Machine/Transact.lean ====
section
/-! DEFINITION. The sequential form of an operation, `transact` (43_operations.md R114), over the inputs of the coming steps.
`step` does not use it: it is the summary that the micro-steps are held against. -/

namespace Sys2Proof.Machine

/-- The next step in which the environment answers, and the inputs after it; none if the call never returns. -/
def awaitReply : List Input → Option (Input × List Input)
  | [] => none
  | i :: rest => if i.busRsp then some (i, rest) else awaitReply rest

/-- How far a transaction has come: the inputs left and the calls made. -/
structure Progress where
  rest : List Input
  calls : List BusCall
  deriving DecidableEq, Repr

/-- One blocking call: wait for the reply `i` and note the call as `entry i`. -/
def Progress.call (p : Progress) (entry : Input → BusCall) : Option (Input × Progress) :=
  match awaitReply p.rest with
  | none => none
  | some (i, rest) => some (i, ⟨rest, p.calls ++ [entry i]⟩)

/-- The step of `CHECK` makes no call and lets one input vector pass. -/
def Progress.pass (p : Progress) : Progress := ⟨p.rest.tail, p.calls⟩

/-- What a transaction ends with: its result, the words to commit in order of arrival (none after a failure), the inputs left
and the calls made. -/
structure TransactResult where
  ok : Bool
  words : List Word
  rest : List Input
  calls : List BusCall
  deriving DecidableEq, Repr

/-- The closing stop, then the result; a failure commits nothing. -/
def closeTransaction (ok : Bool) (words : List Word) (p : Progress) : Option TransactResult :=
  match p.call fun _ => .stop with
  | none => none
  | some (_, p) => some ⟨ok, if ok then words else [], p.rest, p.calls⟩

/-- The three bytes of one value (30_encoding.md R68); the third is acknowledged if more values follow (R69). -/
def readFrame (more : Bool) (p : Progress) : Option (Byte × Byte × Byte × Progress) :=
  match p.call fun i => .read true i.busRdata with
  | none => none
  | some (i0, p) =>
    match p.call fun i => .read true i.busRdata with
    | none => none
    | some (i1, p) =>
      match p.call fun i => .read more i.busRdata with
      | none => none
      | some (i2, p) => some (i0.busRdata, i1.busRdata, i2.busRdata, p)

/-- The loop over the values: read one, check it, go on or abort. `words` are the validated ones so far. -/
def readWords : Nat → List Word → Progress → Option TransactResult
  | 0, words, p => closeTransaction true words p
  | left + 1, words, p =>
    match readFrame (decide (0 < left)) p with
    | none => none
    | some (b0, b1, c, p) =>
      if frameValid b0 b1 c then readWords left (words ++ [rawWord b0 b1]) p.pass
      else closeTransaction false [] p.pass

/-- The read phase: a new start, the address with read intent, the values. -/
def readPhase (words : Nat) (p : Progress) : Option TransactResult :=
  match p.call fun _ => .start with
  | none => none
  | some (_, p) =>
    match p.call fun i => .addressRead Config.deviceAddr i.busAckIn with
    | none => none
    | some (i, p) => if i.busAckIn then readWords words [] p else closeTransaction false [] p

/-- What follows a fully acknowledged write phase. -/
def afterWrite (words : Nat) (midStop : Bool) (p : Progress) : Option TransactResult :=
  if words = 0 then closeTransaction true [] p
  else if midStop then
    match p.call fun _ => .stop with
    | none => none
    | some (_, p) => readPhase words p
  else readPhase words p

/-- `transact(code, K, MIDSTOP)` (R114) on the inputs `inputs`; none if some call never returns. -/
def transact (code : Word) (words : Nat) (midStop : Bool) (inputs : List Input) : Option TransactResult :=
  match (Progress.mk inputs []).call fun _ => .start with
  | none => none
  | some (_, p) =>
    match p.call fun i => .addressWrite Config.deviceAddr i.busAckIn with
    | none => none
    | some (i, p) =>
      if i.busAckIn then
        match p.call fun i => .data code.high i.busAckIn with
        | none => none
        | some (i, p) =>
          if i.busAckIn then
            match p.call fun i => .data code.low i.busAckIn with
            | none => none
            | some (i, p) => if i.busAckIn then afterWrite words midStop p else closeTransaction false [] p
          else closeTransaction false [] p
      else closeTransaction false [] p

/-- The Sensor State after a transaction's words are committed (42_sequencer.md R108). -/
def commitTransaction (commit : Commit) (words : List Word) (x : SensorState) : SensorState :=
  match commit, words with
  | .temperatureAndHumidity, [temperature, humidity] => { x with lastTemperature := temperature, lastHumidity := humidity }
  | .status, [status] => { x with lastStatus := status }
  | _, _ => x

end Sys2Proof.Machine
end

