-- ==== Sys2Proof/Safety.lean ====
section
/-! DEFINITION. What counts as a safe run: the invariants of the reachable states. Three of them, each kept by every step: the
control registers agree with each other, the bus trace keeps the bracket contract, and the Sensor State holds only received
words. -/

namespace Sys2Proof.Machine

/-! ### The control registers -/

/-- `upc` is in the read phase, from its start to the check of a word. -/
def Upc.inReadPhase : Upc → Bool
  | .rStart => true
  | .rAddr => true
  | .rB0 => true
  | .rB1 => true
  | .rCrc => true
  | .check => true
  | .idle => false
  | .wStart => false
  | .wAddr => false
  | .wMsb => false
  | .wLsb => false
  | .midStop => false
  | .finalStop => false
  | .done => false
  | .failed => false

/-- `upc` is reading or checking the bytes of a word. -/
def Upc.inWord : Upc → Bool
  | .rB0 => true
  | .rB1 => true
  | .rCrc => true
  | .check => true
  | .idle => false
  | .wStart => false
  | .wAddr => false
  | .wMsb => false
  | .wLsb => false
  | .midStop => false
  | .rStart => false
  | .rAddr => false
  | .finalStop => false
  | .done => false
  | .failed => false

/-- The control registers agree with each other, as they do in every state that a run from reset reaches. -/
structure ControlInv (s : State) : Prop where
  /-- Only a legal command runs (30_encoding.md R71). -/
  legal : s.busy = true → illegalCommand s.opR s.rateR s.repR = false
  /-- `code_r` is the wire code of the running operation (10_state.md R31). -/
  code : s.busy = true → wireCode s.rom s.opR s.rateR s.repR = some s.codeR
  /-- The intermediate stop is SINGLE_SHOT's alone (42_sequencer.md R100). -/
  midStop : s.upc = .midStop → s.opR = 3#3
  /-- Only an operation that reads words is in the read phase (R99). -/
  reads : s.upc.inReadPhase = true → 0 < s.words
  /-- The word being read is one of the operation's (R106). -/
  index : s.upc.inWord = true → s.widx.toNat < s.words
  /-- No word has been read before the first one (R95). -/
  firstWord : s.busy = true → s.upc.inWord = false → s.upc ≠ .finalStop → s.widx = 0#1
  /-- A success closes after its last word (R106). -/
  lastWord : s.upc = .finalStop → s.fail = false → 0 < s.words → s.widx.toNat + 1 = s.words
  /-- `fail` stands only from the failure to the next accept (10_state.md R28). -/
  failed : s.fail = true → s.upc = .finalStop ∨ s.upc = .failed

/-! ### The bracket contract -/

/-- Where the bus stands after a prefix of the trace. -/
inductive BusPhase where
  /-- No bracket is open. -/
  | closed
  /-- A start has opened a bracket. -/
  | opened
  /-- A second start inside the bracket, after the command bytes. -/
  | reopened
  /-- The device has acknowledged its address with write intent. -/
  | addressed
  /-- The first command byte is acknowledged. -/
  | oneByte
  /-- Both command bytes are acknowledged. -/
  | twoBytes
  /-- The device has acknowledged its address with read intent, and every byte read so far was acknowledged. -/
  | reading
  /-- A call was not acknowledged, or the last byte of a read was left un-acknowledged: only a stop may follow. -/
  | mustStop
  deriving DecidableEq, Repr

/-- The phase after one more call; none for a call that the block never makes there (40_bus_primitives.md R83, R84). -/
def BusPhase.after : BusPhase → BusCall → Option BusPhase
  | .closed, .start => some .opened
  | .opened, .addressWrite address ack =>
    if address = Config.deviceAddr then some (if ack then .addressed else .mustStop) else none
  | .opened, .addressRead address ack =>
    if address = Config.deviceAddr then some (if ack then .reading else .mustStop) else none
  | .reopened, .addressRead address ack =>
    if address = Config.deviceAddr then some (if ack then .reading else .mustStop) else none
  | .addressed, .data _ ack => some (if ack then .oneByte else .mustStop)
  | .oneByte, .data _ ack => some (if ack then .twoBytes else .mustStop)
  | .twoBytes, .start => some .reopened
  | .twoBytes, .stop => some .closed
  | .reading, .read ackToSend _ => some (if ackToSend then .reading else .mustStop)
  | .reading, .stop => some .closed
  | .mustStop, .stop => some .closed
  | _, _ => none

/-- The phase after a list of calls; none if one of them breaks the contract. -/
def BusPhase.afterAll : BusPhase → List BusCall → Option BusPhase
  | p, [] => some p
  | p, call :: rest =>
    match p.after call with
    | none => none
    | some q => q.afterAll rest

/-- The phase at the end of a trace that begins with no bracket open. -/
def busPhase (trace : List BusCall) : Option BusPhase := BusPhase.closed.afterAll trace

/-- The bus phases that the micro-state goes with. -/
def State.phaseFits (s : State) (p : BusPhase) : Bool :=
  match s.upc with
  | .idle => p == .closed
  | .wStart => p == .closed
  | .wAddr => p == .opened
  | .wMsb => p == .addressed
  | .wLsb => p == .oneByte
  | .midStop => p == .twoBytes
  | .rStart => p == if s.midStopBetween then .closed else .twoBytes
  | .rAddr => p == if s.midStopBetween then .opened else .reopened
  | .rB0 => p == .reading
  | .rB1 => p == .reading
  | .rCrc => p == .reading
  | .check => p == if s.moreFollow s.words then .reading else .mustStop
  | .finalStop =>
    if s.fail then p == .mustStop || p == .reading
    else p == if s.words = 0 then .twoBytes else .mustStop
  | .done => p == .closed
  | .failed => p == .closed

/-- The trace keeps the bracket contract, and ends where the micro-state says. -/
def TraceInv (s : State) : Prop := ∃ p, busPhase s.trace = some p ∧ s.phaseFits p = true

/-! ### The Sensor State -/

/-- The trace shows the word `w` received: its two bytes, and then the checksum byte that matches it. -/
def Received (trace : List BusCall) (w : Word) : Prop :=
  ∃ before after ack, trace = before ++ [.read true w.high, .read true w.low, .read ack (crc8 w)] ++ after

/-- The Sensor State holds only reset values and received words whose checksum matched (10_state.md R21), and the latches hold
what the end of the trace shows. -/
structure DataInv (s : State) : Prop where
  temperature : s.t = 0 ∨ Received s.trace s.t
  humidity : s.rh = 0 ∨ Received s.trace s.rh
  status : s.st = 0 ∨ Received s.trace s.st
  firstByte : s.upc = .rB1 → ∃ before, s.trace = before ++ [.read true s.b0]
  twoBytes : s.upc = .rCrc → ∃ before, s.trace = before ++ [.read true s.b0, .read true s.b1]
  frame : s.upc = .check → ∃ before ack, s.trace = before ++ [.read true s.b0, .read true s.b1, .read ack s.c]
  firstStaged : s.upc.inWord = true → s.widx = 1#1 → Received s.trace s.stage0
  stagedOne : s.upc = .finalStop → s.fail = false → 0 < s.words → Received s.trace s.stage0
  stagedTwo : s.upc = .finalStop → s.fail = false → 1 < s.words → Received s.trace s.stage1

/-- A state from which the next step does not stop. -/
def State.Safe (s : State) : Prop := ∃ s', step s = .next s'

/-- `n` steps of the block, or the first stop among them. -/
def runFor : Nat → State → Host.Outcome State Fault Refusal
  | 0, s => .next s
  | n + 1, s =>
    match step s with
    | .next s' => runFor n s'
    | .fault r => .fault r
    | .refused r => .refused r

/-! ### The document's state machine -/

/-- The transitions of the source's state machine (42_sequencer.md R92), staying where it is, the loop over the words
(90_conflicts.md C4), and the accept of a new command, which may be refused at once. -/
def DocState.mayFollow : DocState → DocState → Bool
  | .idle, .idle => true
  | .idle, .addressPhase => true
  | .idle, .failed => true
  | .addressPhase, .addressPhase => true
  | .addressPhase, .commandBytesSent => true
  | .addressPhase, .failed => true
  | .commandBytesSent, .commandBytesSent => true
  | .commandBytesSent, .readAddressPhase => true
  | .commandBytesSent, .done => true
  | .commandBytesSent, .failed => true
  | .readAddressPhase, .readAddressPhase => true
  | .readAddressPhase, .dataRead => true
  | .dataRead, .checksumChecked => true
  | .dataRead, .failed => true
  | .checksumChecked, .checksumChecked => true
  | .checksumChecked, .dataRead => true
  | .checksumChecked, .done => true
  | .done, .done => true
  | .done, .idle => true
  | .done, .failed => true
  | .failed, .failed => true
  | .failed, .idle => true
  | _, _ => false

end Sys2Proof.Machine
end

