-- ==== Sys2Proof/Certificates/Slice0/Obligations.lean ====
section
/-! DEFINITION. The statements for the provers. Each docstring names the rule of spec/ it formalises; "R" numbers and "D" numbers
are the spec's. Where a statement rests on a decision the spec marks as its own, or on a log entry of this model, the docstring
says so. -/

open Sys2Proof Sys2Proof.Machine

/-! ## Helpers of the statements -/

/-- After a failure, until the operation has ended: the only call left is the closing stop. However long it waits (waiting changes
the inputs alone, so they are taken as any), the next step either waits on or ends in `FAILED` with just that stop added to the trace
and no call outstanding (42_sequencer.md R112). -/
def Sys2Proof.Statements.OnlyTheStopRemains (s : State) : Prop :=
  s.busRequest = some .stop ∧
  ∀ (inputs : List Input) (s' : State), ({ s with inputs := inputs } : State).input.rst = false →
    step { s with inputs := inputs } = .next s' →
    s' = { s with inputs := inputs.tail } ∨
      (s'.upc = .failed ∧ s'.trace = s.trace ++ [.stop] ∧ s'.busRequest = none ∧ s'.sensor = s.sensor)

/-- The next step of the running operation fails: its call is answered without an acknowledge, or the check finds a wrong checksum
(60_exceptions.md R124 to R126). -/
def Sys2Proof.Statements.StepFails (s : State) : Prop :=
  (s.upc ∈ [.wAddr, .wMsb, .wLsb, .rAddr] ∧ s.input.busRsp = true ∧ s.input.busAckIn = false) ∨
    (s.upc = .check ∧ crc8 (rawWord s.b0 s.b1) ≠ s.c)

/-- The trace of a fully acknowledged write phase of the wire code `code`. -/
def Sys2Proof.Statements.writePhase (code : Word) : List BusCall :=
  [.start, .addressWrite 0x44#7 true, .data code.high true, .data code.low true]

/-- The trace of the start and the acknowledged address of a read phase, after the intermediate stop if there is one. -/
def Sys2Proof.Statements.readOpening (midStop : Bool) (ack : Bool) : List BusCall :=
  (if midStop then [.stop] else []) ++ [.start, .addressRead 0x44#7 ack]

/-- The trace of the three bytes of one value. -/
def Sys2Proof.Statements.frameCalls (b0 b1 c : Byte) (more : Bool) : List BusCall :=
  [.read true b0, .read true b1, .read more c]

/-- The inputs of `n` promptly acknowledged calls. -/
def Sys2Proof.Statements.acks (n : Nat) : List Input := List.replicate n (Input.reply true 0)

/-- The inputs of a promptly read value, and of the step that checks it. -/
def Sys2Proof.Statements.frameReplies (b0 b1 c : Byte) : List Input :=
  [Input.reply false b0, Input.reply false b1, Input.reply false c, Input.quiet]

/-- The 24-bit frame of a word and its checksum byte. -/
def Sys2Proof.Statements.frameOf (w : Word) (c : Byte) : BitVec 24 := w ++ c

/-- The frame passes the test of R89. -/
def Sys2Proof.Statements.framePasses (f : BitVec 24) : Bool :=
  frameValid (f.extractLsb' 16 8) (f.extractLsb' 8 8) (f.extractLsb' 0 8)

/-- The frame with the bits at the given positions flipped. -/
def Sys2Proof.Statements.flipBits : BitVec 24 → List (Fin 24) → BitVec 24
  | f, [] => f
  | f, p :: rest => flipBits (f ^^^ BitVec.twoPow 24 p.val) rest

/-- The contribution of each bit of a word to its checksum, `L[0..15]` of 41_checksum.md R91 (b). -/
def Sys2Proof.Statements.bitContribution : List Byte :=
  [0x31#8, 0x62#8, 0xC4#8, 0xB9#8, 0x43#8, 0x86#8, 0x3D#8, 0x7A#8,
   0xF4#8, 0xD9#8, 0x83#8, 0x37#8, 0x6E#8, 0xDC#8, 0x89#8, 0x23#8]

/-- Exclusive or of the contributions of the set bits of `w`, from bit `i` on. -/
def Sys2Proof.Statements.xorOfSetBits (w : Word) : Nat → List Byte → Byte
  | _, [] => 0
  | i, l :: rest => (if w.getLsbD i then l else 0) ^^^ xorOfSetBits w (i + 1) rest

/-- How many starts a trace holds. -/
def Sys2Proof.Statements.starts (calls : List BusCall) : Nat := calls.countP (· == .start)

/-- How many stops a trace holds. -/
def Sys2Proof.Statements.stops (calls : List BusCall) : Nat := calls.countP (· == .stop)

open Sys2Proof.Statements

/-! ## Reset -/

/-- R37, R142 (decision D11): the reset state holds the values of R18's last column. `crc` is left out: its reset value is the
model's choice (log entry 5). -/
def Obligations.ResetValuesAreThoseOfTheTable : Prop :=
  State.reset.t = 0 ∧ State.reset.rh = 0 ∧ State.reset.st = 0 ∧ State.reset.upc = .idle ∧ State.reset.opR = 0 ∧
  State.reset.rateR = 0 ∧ State.reset.repR = 0 ∧ State.reset.codeR = 0 ∧ State.reset.fail = false ∧ State.reset.widx = 0 ∧
  State.reset.b0 = 0 ∧ State.reset.b1 = 0 ∧ State.reset.c = 0 ∧ State.reset.stage0 = 0 ∧ State.reset.stage1 = 0 ∧
  State.reset.busy = false ∧ State.reset.done = false ∧ State.reset.ok = false ∧ State.reset.busRequest = none ∧
  State.reset.trace = []

/-- R142, R143, R130 (decisions D11, D12): in any micro-state and whatever else is driven, `rst` takes the block to its reset
state. No call is made, none stays outstanding, and the trace starts anew (log entry 4); the tables stay. `crc` is left out
(log entry 5). -/
def Obligations.RstOverridesEverything : Prop :=
  ∀ s : State, s.input.rst = true →
    ∃ s', step s = .next s' ∧
      s'.t = 0 ∧ s'.rh = 0 ∧ s'.st = 0 ∧ s'.upc = .idle ∧ s'.opR = 0 ∧ s'.rateR = 0 ∧ s'.repR = 0 ∧ s'.codeR = 0 ∧
      s'.fail = false ∧ s'.widx = 0 ∧ s'.b0 = 0 ∧ s'.b1 = 0 ∧ s'.c = 0 ∧ s'.stage0 = 0 ∧ s'.stage1 = 0 ∧
      s'.busRequest = none ∧ s'.trace = [] ∧ s'.rom = s.rom ∧ s'.inputs = s.inputs.tail

/-- The three invariants of Safety.lean hold in the reset state. -/
def Obligations.ResetMeetsTheInvariants : Prop :=
  ControlInv State.reset ∧ TraceInv State.reset ∧ DataInv State.reset

/-! ## Decoding -/

/-- The command word of every operation, with every operand and every ignored bit, decodes to that operation (R62, R63,
decision D2). That the ignored bits come back too rests on the model's keeping them in the instruction (log entry 10). -/
def Obligations.DecodeOfEncodeIsTheInstruction : Prop :=
  ∀ (i : Instr) (rest : List Byte), decode (encode i ++ rest) = .ok (i, rest)

/-- A decoded list of bytes is the encoding of what it decodes to: the decoder drops no bit (R62, R63, decision D2). It holds because
the model keeps bits 4:0 in the instruction where they are ignored (log entry 10): by R64 many command words select one operation,
as 0x00 and 0x1F both select SOFT_RESET, and here they are `softReset 0` and `softReset 31`. -/
def Obligations.DecodedBytesAreTheEncoding : Prop :=
  ∀ (bytes : List Byte) (i : Instr) (rest : List Byte), decode bytes = .ok (i, rest) → bytes = encode i ++ rest

/-- Only operation number 7 is refused by the decoder (R63, R71, decisions D2, D4); an illegal operand pair decodes, which is the
model's choice (log entry 9). -/
def Obligations.DecoderRefusesExactlyTheReservedNumber : Prop :=
  decode [] = .error .noByte ∧
  ∀ (cmd : Byte) (rest : List Byte), (decode (cmd :: rest) = .error .reservedOp ↔ cmd.extractLsb' 5 3 = 7#3) ∧
    decode (cmd :: rest) ≠ .error .noByte

/-- Command words written out from R63's table and 95_test_vectors.md 2.2, one at least of each family. -/
def Obligations.SampleWordsDecode : Prop :=
  decodeTableWord 8 0x00 = some (.softReset 0) ∧ decodeTableWord 8 0x1F = some (.softReset 31) ∧
  decodeTableWord 8 0x26 = some (.setPeriodic 1 2) ∧ decodeTableWord 8 0x32 = some (.setPeriodic 4 2) ∧
  decodeTableWord 8 0x5F = some (.fetch 31) ∧ decodeTableWord 8 0x60 = some (.singleShot 0) ∧
  decodeTableWord 8 0x80 = some (.readStatus 0) ∧ decodeTableWord 8 0xA0 = some (.clearStatus 0) ∧
  decodeTableWord 8 0xC0 = some (.breakOp 0) ∧ decodeTableWord 8 0xE0 = none ∧ decodeTableWord 8 0xFF = none

/-- R71 (decision D4): a command is illegal exactly for `op` = 7, and for `op` = 1 with `rate` > 4 or `rep` = 3; exactly then it
has no wire code, whatever the tables hold. -/
def Obligations.IllegalCommandsHaveNoWireCode : Prop :=
  ∀ (rom : CommandRom) (op : BitVec 3) (rate : BitVec 3) (rep : BitVec 2),
    wireCode rom op rate rep = none ↔ op = 7#3 ∨ (op = 1#3 ∧ (4 < rate.toNat ∨ rep.toNat = 3))

/-- R64: the legal operands of SetPeriodicMode are exactly the codes of the five rates and the three repeatabilities. -/
def Obligations.LegalOperandsAreTheEnumerations : Prop :=
  ∀ (rate : BitVec 3) (rep : BitVec 2),
    (Instr.setPeriodic rate rep).WellFormed = true ↔
      (∃ r : AcquisitionRate, r.code = rate) ∧ ∃ p : Repeatability, p.code = rep

/-! ## The command catalog -/

/-- R39, R65: the wire code of each operation. SetPeriodicMode has no fixed code: its own is its two table entries, whatever they
are. -/
def Obligations.WireCodesOfTheSevenOperations : Prop :=
  ∀ (rom : CommandRom) (rate : BitVec 3) (rep : BitVec 2),
    wireCode rom 0 rate rep = some 0x30A2#16 ∧ wireCode rom 2 rate rep = some 0xE000#16 ∧
    wireCode rom 3 rate rep = some 0x2C06#16 ∧ wireCode rom 4 rate rep = some 0xF32D#16 ∧
    wireCode rom 5 rate rep = some 0x3041#16 ∧ wireCode rom 6 rate rep = some 0x3093#16 ∧ codeEntry 1 = none ∧
    ∀ (hr : rate.toNat < 5) (hp : rep.toNat < 3),
      ∃ code, wireCode rom 1 rate rep = some code ∧ code.high = rom.pmsb[rate.toNat] ∧
        code.low = rom.plsb[rate.toNat * 3 + rep.toNat]'(by omega)

/-- R66 (decision D13; PRESUMED entries, log entry 7): the fifteen codes of SetPeriodicMode under the default tables. -/
def Obligations.DefaultPeriodicCodes : Prop :=
  [(0, 0), (0, 1), (0, 2), (1, 0), (1, 1), (1, 2), (2, 0), (2, 1), (2, 2), (3, 0), (3, 1), (3, 2), (4, 0), (4, 1), (4, 2)].map
      (fun p : BitVec 3 × BitVec 2 => wireCode defaultRom 1 p.1 p.2) =
    [some 0x202F#16, some 0x2024#16, some 0x2032#16, some 0x212D#16, some 0x2126#16, some 0x2130#16, some 0x222B#16,
     some 0x2220#16, some 0x2236#16, some 0x2329#16, some 0x2322#16, some 0x2334#16, some 0x272A#16, some 0x2721#16,
     some 0x2737#16]

/-- R44: nothing writes the catalog, reset included. -/
def Obligations.CatalogIsNeverWritten : Prop :=
  ∀ s s' : State, step s = .next s' → s'.rom = s.rom

/-- R94: how many words each operation reads, and that only SINGLE_SHOT stops between its phases; with the number R63 gives it
and the registers R20 says it commits. -/
def Obligations.ParametersOfTheSevenOperations : Prop :=
  ∀ (u : BitVec 5) (rate : BitVec 3) (rep : BitVec 2),
    operationOf (.softReset u) = ⟨0, u.extractLsb' 2 3, u.extractLsb' 0 2, 0, false, .nothing⟩ ∧
    operationOf (.setPeriodic rate rep) = ⟨1, rate, rep, 0, false, .nothing⟩ ∧
    operationOf (.fetch u) = ⟨2, u.extractLsb' 2 3, u.extractLsb' 0 2, 2, false, .temperatureAndHumidity⟩ ∧
    operationOf (.singleShot u) = ⟨3, u.extractLsb' 2 3, u.extractLsb' 0 2, 2, true, .temperatureAndHumidity⟩ ∧
    operationOf (.readStatus u) = ⟨4, u.extractLsb' 2 3, u.extractLsb' 0 2, 1, false, .status⟩ ∧
    operationOf (.clearStatus u) = ⟨5, u.extractLsb' 2 3, u.extractLsb' 0 2, 0, false, .nothing⟩ ∧
    operationOf (.breakOp u) = ⟨6, u.extractLsb' 2 3, u.extractLsb' 0 2, 0, false, .nothing⟩

/-! ## The step -/

/-- A step runs the decoded instruction (R93, R95, decisions D5, D6). When the block is not busy and the host offers a word that
decodes to `i`, the step is `exec i`; when the block is busy, the step is `exec` of the operation in the command register. -/
def Obligations.StepRunsTheDecodedInstruction : Prop :=
  (∀ (s : State) (i : Instr) (rest : List Byte), s.input.rst = false → s.busy = false → s.input.cmdValid = true →
    decode [s.input.cmd] = .ok (i, rest) → step s = exec i s) ∧
  (∀ (s : State) (i : Instr), s.input.rst = false → s.busy = true → Instr.ofFields s.opR s.rateR s.repR = some i →
    step s = exec i s)

/-- R95, R127 (decision D4): the reserved number, offered to a block that is not busy, is refused in the accept step: `FAILED`,
no call, `code_r` and the Sensor State unchanged. -/
def Obligations.ReservedNumberIsRefusedAtAccept : Prop :=
  ∀ s : State, s.input.rst = false → s.busy = false → s.input.cmdValid = true → cmdOp s.input.cmd = 7#3 →
    step s = .next { s with
      opR := 7, rateR := s.input.cmd.extractLsb' 2 3, repR := s.input.cmd.extractLsb' 0 2, fail := false, widx := 0,
      upc := .failed, inputs := s.inputs.tail }

/-- R95, R109 (decision D15): without a command `IDLE`, `DONE` and `FAILED` stay as they are; the step only lets its inputs
pass, whatever the environment drives. -/
def Obligations.BlockWaitsForACommand : Prop :=
  ∀ s : State, s.input.rst = false → s.busy = false → s.input.cmdValid = false →
    step s = .next { s with inputs := s.inputs.tail }

/-- R31, R130 (decision D5): what the host offers while the block is busy changes nothing, in the step in which the operation
ends included. -/
def Obligations.OffersWhileBusyAreIgnored : Prop :=
  ∀ (s : State) (i : Input) (rest : List Input) (valid : Bool) (cmd : Byte), s.busy = true → s.inputs = i :: rest →
    step { s with inputs := { i with cmdValid := valid, cmd := cmd } :: rest } = step s

/-- The model stops only in a busy state whose operation number is the reserved one, with no reset (log entry 11), and no
operation is refused. So no state that the control invariant allows stops. -/
def Obligations.StopsOnlyOnARunningReservedNumber : Prop :=
  (∀ s : State, (∃ r, step s = .fault r) ↔ s.input.rst = false ∧ s.busy = true ∧ s.opR = 7#3) ∧
  (∀ (s : State) (r : Refusal), step s ≠ .refused r) ∧
  (∀ s : State, ControlInv s → s.Safe)

/-! ## Accept -/

/-- R95 (decision D5): every legal operation is accepted by a block that is not busy: its fields and wire code are latched, `fail`
and `widx` are cleared, and it goes to `W_START` with no bus call. -/
def Obligations.LegalOperationIsAccepted : Prop :=
  ∀ (i : Instr) (s : State), i.WellFormed = true → s.busy = false →
    ∃ code, wireCode s.rom i.op (cmdRate i.cmd) (cmdRep i.cmd) = some code ∧
      exec i s = .next { s with
        opR := i.op, rateR := cmdRate i.cmd, repR := cmdRep i.cmd, codeR := code, fail := false, widx := 0,
        upc := .wStart, inputs := s.inputs.tail }

/-- R117, R127 (decision D4): SET_PERIODIC with an operand out of range raises `IllegalCommand` in the accept step: `FAILED` with
`fail` clear, no bus call, `code_r` and the Sensor State unchanged, `done` = 1 and `ok` = 0. -/
def Obligations.IllegalSetPeriodicIsRefused : Prop :=
  ∀ (rate : BitVec 3) (rep : BitVec 2) (s : State), (4 < rate.toNat ∨ rep.toNat = 3) → s.busy = false →
    ∃ s', exec (.setPeriodic rate rep) s = .next s' ∧ s'.done = true ∧ s'.ok = false ∧
      s' = { s with opR := 1, rateR := rate, repR := rep, fail := false, widx := 0, upc := .failed, inputs := s.inputs.tail }

/-! ## The micro-steps, for every operation -/

/-- R96. -/
def Obligations.WritePhaseOpensWithAStart : Prop :=
  ∀ (i : Instr) (s : State), s.upc = .wStart → s.input.busRsp = true →
    exec i s = .next { s with upc := .wAddr, trace := s.trace ++ [.start], inputs := s.inputs.tail }

/-- R97, with R12's `raise` and R112's closing stop as the only call left; the document's state as R25 reads it. -/
def Obligations.DeviceIsAddressedForWriting : Prop :=
  ∀ (i : Instr) (s : State), s.upc = .wAddr → s.input.busRsp = true →
    (s.input.busAckIn = true →
      ∃ s', exec i s = .next s' ∧ s'.docState = .addressPhase ∧
        s' = { s with upc := .wMsb, trace := s.trace ++ [.addressWrite 0x44#7 true], inputs := s.inputs.tail }) ∧
    (s.input.busAckIn = false →
      ∃ s', exec i s = .next s' ∧ OnlyTheStopRemains s' ∧
        s' = { s with
          fail := true, upc := .finalStop, trace := s.trace ++ [.addressWrite 0x44#7 false], inputs := s.inputs.tail })

/-- R98: the high byte of `code_r`; after a NACK the low byte is never sent. -/
def Obligations.HighByteIsSentFirst : Prop :=
  ∀ (i : Instr) (s : State), s.upc = .wMsb → s.input.busRsp = true →
    (s.input.busAckIn = true →
      exec i s = .next { s with
        upc := .wLsb, trace := s.trace ++ [.data (s.codeR.extractLsb' 8 8) true], inputs := s.inputs.tail }) ∧
    (s.input.busAckIn = false →
      ∃ s', exec i s = .next s' ∧ OnlyTheStopRemains s' ∧
        s' = { s with
          fail := true, upc := .finalStop, trace := s.trace ++ [.data (s.codeR.extractLsb' 8 8) false],
          inputs := s.inputs.tail })

/-- R99: the low byte of `code_r`, and where each operation goes on: the four that read nothing to the closing stop, SINGLE_SHOT
to the intermediate stop, FETCH and READ_STATUS to the read phase. In the states that the control invariant allows, the document's
state is then `CommandBytesSent`. -/
def Obligations.LowByteEndsTheWritePhase : Prop :=
  ∀ (i : Instr) (s : State), s.upc = .wLsb → s.input.busRsp = true →
    (s.input.busAckIn = true →
      ∃ s', exec i s = .next s' ∧ (ControlInv s → s.latched = some i → s'.docState = .commandBytesSent) ∧
        s' = { s with
          upc :=
            match i with
            | .softReset _ => .finalStop
            | .setPeriodic _ _ => .finalStop
            | .clearStatus _ => .finalStop
            | .breakOp _ => .finalStop
            | .singleShot _ => .midStop
            | .fetch _ => .rStart
            | .readStatus _ => .rStart
          trace := s.trace ++ [.data (s.codeR.extractLsb' 0 8) true]
          inputs := s.inputs.tail }) ∧
    (s.input.busAckIn = false →
      ∃ s', exec i s = .next s' ∧ OnlyTheStopRemains s' ∧
        s' = { s with
          fail := true, upc := .finalStop, trace := s.trace ++ [.data (s.codeR.extractLsb' 0 8) false],
          inputs := s.inputs.tail })

/-- R100 (decision D20): the intermediate stop does not fail, does not end the operation, and the read phase follows at once; in
the states that the control invariant allows only SINGLE_SHOT makes it. -/
def Obligations.IntermediateStopOpensTheReadPhase : Prop :=
  (∀ (i : Instr) (s : State), s.upc = .midStop → s.input.busRsp = true →
    exec i s = .next { s with upc := .rStart, trace := s.trace ++ [.stop], inputs := s.inputs.tail }) ∧
  (∀ s : State, ControlInv s → s.upc = .midStop → ∃ u, s.latched = some (.singleShot u))

/-- R101: a new start. For FETCH and READ_STATUS the bracket of the write phase is still open before it; for SINGLE_SHOT none
is. -/
def Obligations.ReadPhaseOpensWithAStart : Prop :=
  (∀ (i : Instr) (s : State), s.upc = .rStart → s.input.busRsp = true →
    exec i s = .next { s with upc := .rAddr, trace := s.trace ++ [.start], inputs := s.inputs.tail }) ∧
  (∀ (s : State) (u : BitVec 5), s.upc = .rStart →
    (s.latched = some (.fetch u) → s.bracketOpen = true) ∧ (s.latched = some (.readStatus u) → s.bracketOpen = true) ∧
    (s.latched = some (.singleShot u) → s.bracketOpen = false))

/-- R102: after a NACK no byte is read. In the states that the control invariant allows, an acknowledge takes the document's state to
`ReadAddressPhase`. -/
def Obligations.DeviceIsAddressedForReading : Prop :=
  ∀ (i : Instr) (s : State), s.upc = .rAddr → s.input.busRsp = true →
    (s.input.busAckIn = true →
      ∃ s', exec i s = .next s' ∧ (ControlInv s → s'.docState = .readAddressPhase) ∧
        s' = { s with upc := .rB0, trace := s.trace ++ [.addressRead 0x44#7 true], inputs := s.inputs.tail }) ∧
    (s.input.busAckIn = false →
      ∃ s', exec i s = .next s' ∧ OnlyTheStopRemains s' ∧
        s' = { s with
          fail := true, upc := .finalStop, trace := s.trace ++ [.addressRead 0x44#7 false], inputs := s.inputs.tail })

/-- R103, R104: the two data bytes are read with an acknowledge and latched; together they are the word, the first byte in its
high half. -/
def Obligations.DataBytesAreReadAndLatched : Prop :=
  (∀ (i : Instr) (s : State), s.upc = .rB0 → s.input.busRsp = true →
    exec i s = .next { s with
      b0 := s.input.busRdata, upc := .rB1, trace := s.trace ++ [.read true s.input.busRdata], inputs := s.inputs.tail }) ∧
  (∀ (i : Instr) (s : State), s.upc = .rB1 → s.input.busRsp = true →
    exec i s = .next { s with
      b1 := s.input.busRdata, upc := .rCrc, trace := s.trace ++ [.read true s.input.busRdata], inputs := s.inputs.tail }) ∧
  (∀ b0 b1 : Byte, (rawWord b0 b1).extractLsb' 8 8 = b0 ∧ (rawWord b0 b1).extractLsb' 0 8 = b1)

/-- R105: the checksum byte is acknowledged exactly if more values follow, which is so for the first word of FETCH and
SINGLE_SHOT alone. The document's state is then `DataRead`. -/
def Obligations.ChecksumByteIsReadAndLatched : Prop :=
  ∀ (i : Instr) (s : State), s.upc = .rCrc → s.input.busRsp = true →
    ∃ (more : Bool) (s' : State),
      (more = true ↔ s.widx.toNat + 1 < (operationOf i).words) ∧
      (more = true ↔ s.widx = 0 ∧ ((∃ u, i = .fetch u) ∨ ∃ u, i = .singleShot u)) ∧
      exec i s = .next s' ∧ s'.docState = .dataRead ∧
      s' = { s with
        c := s.input.busRdata, upc := .check, trace := s.trace ++ [.read more s.input.busRdata], inputs := s.inputs.tail }

/-- R106, R89 (decision D10): a word that passes is staged, and the next one read or the operation closed; one that does not pass
raises `ChecksumMismatch`, and `stage` is not written. `crc` holds the computed checksum (log entry 5). The step needs no answer
from outside. -/
def Obligations.CheckStagesOrAborts : Prop :=
  ∀ (i : Instr) (s : State), s.upc = .check →
    (crc8 (rawWord s.b0 s.b1) ≠ s.c →
      exec i s = .next { s with
        crc := crc8 (rawWord s.b0 s.b1), fail := true, upc := .finalStop, inputs := s.inputs.tail }) ∧
    (crc8 (rawWord s.b0 s.b1) = s.c → s.widx = 0 →
      exec i s = .next { s with
        crc := s.c, stage0 := rawWord s.b0 s.b1, inputs := s.inputs.tail
        widx := if 1 < (operationOf i).words then 1 else 0
        upc := if 1 < (operationOf i).words then .rB0 else .finalStop }) ∧
    (crc8 (rawWord s.b0 s.b1) = s.c → s.widx = 1 →
      exec i s = .next { s with crc := s.c, stage1 := rawWord s.b0 s.b1, upc := .finalStop, inputs := s.inputs.tail })

/-- R107 (decision D7): the closing stop of a failed operation, whichever it is, ends in `FAILED` and commits nothing. -/
def Obligations.FailedOperationClosesWithAStop : Prop :=
  ∀ (i : Instr) (s : State), s.upc = .finalStop → s.fail = true → s.input.busRsp = true →
    exec i s = .next { s with upc := .failed, trace := s.trace ++ [.stop], inputs := s.inputs.tail }

/-- R82, R149: a call that is not answered stays outstanding: the step lets its inputs pass and changes nothing else. That waiting is
a step of its own is log entry 12, and that no inputs left means no answer is log entry 2. -/
def Obligations.UnansweredCallWaits : Prop :=
  ∀ (i : Instr) (s : State), s.busRequest ≠ none → s.input.busRsp = false →
    exec i s = .next { s with inputs := s.inputs.tail }

/-! ## Completion of each operation -/

/-- R107, R108 with R116, R117, R121, R122 (decisions D7, D8): SOFT_RESET, SET_PERIODIC, CLEAR_STATUS and BREAK end with the closing
stop in `DONE`, and store nothing. -/
def Obligations.WriteOnlyOperationsComplete : Prop :=
  ∀ (u : BitVec 5) (rate : BitVec 3) (rep : BitVec 2) (s : State),
    s.upc = .finalStop → s.fail = false → s.input.busRsp = true →
    ∃ s', s' = { s with upc := .done, trace := s.trace ++ [.stop], inputs := s.inputs.tail } ∧
      s'.done = true ∧ s'.ok = true ∧
      exec (.softReset u) s = .next s' ∧ exec (.setPeriodic rate rep) s = .next s' ∧
      exec (.clearStatus u) s = .next s' ∧ exec (.breakOp u) s = .next s'

/-- R107, R108 with R118, R119, R120 (decisions D7, D8, D9): FETCH and SINGLE_SHOT end with the closing stop in `DONE`, and in
that step both words are committed and the status register stays; READ_STATUS ends so and commits its word to the status register
alone. -/
def Obligations.ReadOperationsComplete : Prop :=
  ∀ (u : BitVec 5) (s : State), s.upc = .finalStop → s.fail = false → s.input.busRsp = true →
    (∃ s', s' = { s with t := s.stage0, rh := s.stage1, upc := .done, trace := s.trace ++ [.stop], inputs := s.inputs.tail } ∧
      s'.done = true ∧ s'.ok = true ∧ exec (.fetch u) s = .next s' ∧ exec (.singleShot u) s = .next s') ∧
    (∃ s', s' = { s with st := s.stage0, upc := .done, trace := s.trace ++ [.stop], inputs := s.inputs.tail } ∧
      s'.done = true ∧ s'.ok = true ∧ exec (.readStatus u) s = .next s')

/-- R116, R117, R121, R122: from offer to `DONE` in six promptly answered steps, with the trace of R111's row T4. -/
def Obligations.WriteOnlyOperationsRunToDone : Prop :=
  ∀ (i : Instr) (s : State) (code : Word) (rest : List Input), i.WellFormed = true → (operationOf i).words = 0 → s.busy = false →
    wireCode s.rom i.op (cmdRate i.cmd) (cmdRep i.cmd) = some code →
    s.inputs = Input.offer i.cmd :: (acks 5 ++ rest) →
    runFor 6 s = .next { s with
      opR := i.op, rateR := cmdRate i.cmd, repR := cmdRep i.cmd, codeR := code, fail := false, widx := 0, upc := .done,
      trace := s.trace ++ writePhase code ++ [.stop], inputs := rest }

/-- R118, R119: FETCH and SINGLE_SHOT from offer to `DONE`, with two received words whose checksums match: `T` and `RH` are those
words, the status register is as before, and the bus has seen R111's row T10, for SINGLE_SHOT with the intermediate stop. -/
def Obligations.MeasurementsRunToDone : Prop :=
  ∀ (u : BitVec 5) (s : State) (b0 b1 c d0 d1 d : Byte) (rest : List Input), s.busy = false →
    frameValid b0 b1 c = true → frameValid d0 d1 d = true →
    (s.inputs = Input.offer (Instr.fetch u).cmd ::
        (acks 6 ++ frameReplies b0 b1 c ++ frameReplies d0 d1 d ++ acks 1 ++ rest) →
      ∃ s', runFor 16 s = .next s' ∧ s'.sensor = ⟨rawWord b0 b1, rawWord d0 d1, s.st⟩ ∧ s'.ok = true ∧ s'.inputs = rest ∧
        s'.trace = s.trace ++ writePhase 0xE000 ++ readOpening false true ++ frameCalls b0 b1 c true ++
          frameCalls d0 d1 d false ++ [.stop]) ∧
    (s.inputs = Input.offer (Instr.singleShot u).cmd ::
        (acks 7 ++ frameReplies b0 b1 c ++ frameReplies d0 d1 d ++ acks 1 ++ rest) →
      ∃ s', runFor 17 s = .next s' ∧ s'.sensor = ⟨rawWord b0 b1, rawWord d0 d1, s.st⟩ ∧ s'.ok = true ∧ s'.inputs = rest ∧
        s'.trace = s.trace ++ writePhase 0x2C06 ++ readOpening true true ++ frameCalls b0 b1 c true ++
          frameCalls d0 d1 d false ++ [.stop])

/-- R120: READ_STATUS from offer to `DONE`: `ST` is the received word, `T` and `RH` are as before. -/
def Obligations.ReadStatusRunsToDone : Prop :=
  ∀ (u : BitVec 5) (s : State) (b0 b1 c : Byte) (rest : List Input), s.busy = false → frameValid b0 b1 c = true →
    s.inputs = Input.offer (Instr.readStatus u).cmd :: (acks 6 ++ frameReplies b0 b1 c ++ acks 1 ++ rest) →
    ∃ s', runFor 12 s = .next s' ∧ s'.sensor = ⟨s.t, s.rh, rawWord b0 b1⟩ ∧ s'.ok = true ∧ s'.inputs = rest ∧
      s'.trace = s.trace ++ writePhase 0xF32D ++ readOpening false true ++ frameCalls b0 b1 c false ++ [.stop]

/-- R108, R126 (decision D8, conflict C1): when the second word of FETCH or SINGLE_SHOT fails its check, the first, valid word is
not committed either. -/
def Obligations.SecondWordMismatchCommitsNothing : Prop :=
  ∀ (u : BitVec 5) (s : State) (b0 b1 c d0 d1 d : Byte) (rest : List Input), s.busy = false →
    frameValid b0 b1 c = true → frameValid d0 d1 d = false →
    (s.inputs = Input.offer (Instr.fetch u).cmd ::
        (acks 6 ++ frameReplies b0 b1 c ++ frameReplies d0 d1 d ++ acks 1 ++ rest) →
      ∃ s', runFor 16 s = .next s' ∧ s'.sensor = s.sensor ∧ s'.done = true ∧ s'.ok = false ∧ s'.stage0 = rawWord b0 b1 ∧
        s'.trace = s.trace ++ writePhase 0xE000 ++ readOpening false true ++ frameCalls b0 b1 c true ++
          frameCalls d0 d1 d false ++ [.stop]) ∧
    (s.inputs = Input.offer (Instr.singleShot u).cmd ::
        (acks 7 ++ frameReplies b0 b1 c ++ frameReplies d0 d1 d ++ acks 1 ++ rest) →
      ∃ s', runFor 17 s = .next s' ∧ s'.sensor = s.sensor ∧ s'.done = true ∧ s'.ok = false ∧ s'.stage0 = rawWord b0 b1 ∧
        s'.trace = s.trace ++ writePhase 0x2C06 ++ readOpening true true ++ frameCalls b0 b1 c true ++
          frameCalls d0 d1 d false ++ [.stop])

/-! ## Frames -/

/-- R20: which Sensor State registers an operation may change, and when: SOFT_RESET, SET_PERIODIC, CLEAR_STATUS and BREAK none;
FETCH and SINGLE_SHOT never the status register; READ_STATUS never temperature and humidity; and none of the seven in a step other
than the answered closing stop of a success. The catalog, in particular every byte of it, stays. -/
def Obligations.SensorStateFrame : Prop :=
  ∀ (i : Instr) (s s' : State), exec i s = .next s' →
    s'.rom = s.rom ∧
    (¬ (s.upc = .finalStop ∧ s.fail = false ∧ s.input.busRsp = true) → s'.sensor = s.sensor) ∧
    (match i with
      | .softReset _ => s'.sensor = s.sensor
      | .setPeriodic _ _ => s'.sensor = s.sensor
      | .clearStatus _ => s'.sensor = s.sensor
      | .breakOp _ => s'.sensor = s.sensor
      | .fetch _ => s'.st = s.st
      | .singleShot _ => s'.st = s.st
      | .readStatus _ => s'.t = s.t ∧ s'.rh = s.rh)

/-- R18, R31, R34 (decision D6): each internal register is unchanged by every operation except in the micro-state that R18 names
as its writer. -/
def Obligations.InternalRegisterFrame : Prop :=
  ∀ (i : Instr) (s s' : State), exec i s = .next s' →
    (s.busy = true → s'.opR = s.opR ∧ s'.rateR = s.rateR ∧ s'.repR = s.repR ∧ s'.codeR = s.codeR) ∧
    (s.upc ≠ .rB0 → s'.b0 = s.b0) ∧ (s.upc ≠ .rB1 → s'.b1 = s.b1) ∧ (s.upc ≠ .rCrc → s'.c = s.c) ∧
    (s.upc ≠ .check → s'.stage0 = s.stage0 ∧ s'.stage1 = s.stage1 ∧ s'.crc = s.crc) ∧
    (s.upc = .check → s.widx = 0 → s'.stage1 = s.stage1) ∧ (s.upc = .check → s.widx = 1 → s'.stage0 = s.stage0) ∧
    (s.busy = true → s.upc ≠ .check → s'.widx = s.widx) ∧
    (s.busy = true → s.upc ∉ [.wAddr, .wMsb, .wLsb, .rAddr, .check] → s'.fail = s.fail)

/-- R24, R54, R85, R93: a step of the running operation adds to the trace exactly the call that the bus port presents, when the
environment answers it, and nothing otherwise; without a running operation nothing is added. -/
def Obligations.TraceRecordsThePortCall : Prop :=
  ∀ s s' : State, s.input.rst = false → step s = .next s' →
    s'.trace = s.trace ++
      match s.busRequest with
      | some q => if s.input.busRsp then [q.completed s.input] else []
      | none => []

/-- R32: every address call that a step adds to the trace carries 0x44. The last clause says the same on the bus port in the signal
form of R85 (the spec's own decision D14; log entries 6 and 16): no request has a kind above 5, and an address call shows 0x44 as
eight bits on `bus_wdata`. -/
def Obligations.EveryAddressCallCarriesTheDeviceAddress : Prop :=
  ∀ s s' : State, s.input.rst = false → step s = .next s' →
    (∀ a k, s'.trace = s.trace ++ [.addressWrite a k] → a = 0x44#7) ∧
    (∀ a k, s'.trace = s.trace ++ [.addressRead a k] → a = 0x44#7) ∧
    (∀ q, s.busRequest = some q → q.kind.toNat < 6 ∧ (q.kind = 2#3 ∨ q.kind = 3#3 → q.wdata = some 0x44#8))

/-- R22, R55: a step changes the Sensor State only as the closing step of a success: from `FINAL_STOP` with `fail` clear, with the
stop made, and with `done` and `ok` rising in that same step. So a failed operation leaves it bit for bit. -/
def Obligations.OnlyASuccessChangesTheSensorState : Prop :=
  ∀ s s' : State, s.input.rst = false → step s = .next s' → s'.sensor ≠ s.sensor →
    s.upc = .finalStop ∧ s.fail = false ∧ s.busy = true ∧ s'.upc = .done ∧ s'.done = true ∧ s'.ok = true ∧
    s'.trace = s.trace ++ [.stop]

/-! ## Failures -/

/-- R131, R125, R126: a NACK at `W_ADDR`, `W_MSB`, `W_LSB` or `R_ADDR`, or a failed check, and the answered closing stop after it,
in full: the calls are made, `fail` is set, the block is in `FAILED`, and nothing else changes. (The check itself leaves the computed
checksum in `crc`, log entry 5.) -/
def Obligations.FailuresEnterFailed : Prop :=
  ∀ (s : State) (i j : Input) (rest : List Input), ControlInv s → s.inputs = i :: j :: rest → i.rst = false → j.rst = false →
    j.busRsp = true →
    (∀ q, s.upc ∈ [.wAddr, .wMsb, .wLsb, .rAddr] → i.busRsp = true → i.busAckIn = false → s.busRequest = some q →
      runFor 2 s = .next { s with
        fail := true, upc := .failed, trace := s.trace ++ [q.completed i, .stop], inputs := rest }) ∧
    (s.upc = .check → crc8 (rawWord s.b0 s.b1) ≠ s.c →
      runFor 2 s = .next { s with
        crc := crc8 (rawWord s.b0 s.b1), fail := true, upc := .failed, trace := s.trace ++ [.stop], inputs := rest })

/-- R112: a step in which an acknowledge or a check fails leaves the closing stop as the only call; and no other step sets
`fail` (R124). -/
def Obligations.FailureLeavesOnlyTheClosingStop : Prop :=
  ∀ s s' : State, s.input.rst = false → step s = .next s' →
    (StepFails s → s'.fail = true ∧ s'.upc = .finalStop ∧ OnlyTheStopRemains s') ∧
    (s.fail = false → s'.fail = true → StepFails s)

/-! ## Invariants -/

/-- Every step keeps the control invariant (R26, R28, R31, R71, R94, R106). -/
def Obligations.ControlInvariantIsKept : Prop :=
  ∀ s s' : State, ControlInv s → step s = .next s' → ControlInv s'

/-- Every step keeps the bracket contract and the list of calls never made (R83, R84). -/
def Obligations.BracketContractIsKept : Prop :=
  ∀ s s' : State, ControlInv s → TraceInv s → step s = .next s' → TraceInv s'

/-- Every step keeps this: the Sensor State holds only reset values and received words whose checksum byte matched (R21,
decision D8). -/
def Obligations.SensorStateHoldsOnlyValidatedWords : Prop :=
  ∀ s s' : State, ControlInv s → DataInv s → step s = .next s' → DataInv s'

/-- R36 (b), R83: in every state that the invariants allow, a bracket is open on the trace exactly when the micro-state says so;
so none is open when an operation has ended. -/
def Obligations.BracketIsOpenAsTheMicroStateSays : Prop :=
  ∀ s : State, TraceInv s →
    (s.bracketOpen = false ↔ busPhase s.trace = some .closed) ∧ (s.busy = false → busPhase s.trace = some .closed)

/-- R92, R25 (conflict C4): the document's state follows the source's transitions, or stays. -/
def Obligations.DocumentStateFollowsItsTransitions : Prop :=
  ∀ s s' : State, ControlInv s → s.input.rst = false → step s = .next s' → s.docState.mayFollow s'.docState = true

/-! ## Whole operations -/

/-- R114: the micro-steps do what the sequential procedure `transact` says. A legal operation, offered to a block that is not busy,
with no reset on the way: if `transact` on the inputs after the offer ends with `r`, then the block, after as many steps as `transact`
has let inputs pass, is in `DONE` or `FAILED` as `r` says, has made exactly `r`'s calls, and has committed exactly `r`'s words. -/
def Obligations.MicroStepsRefineTransact : Prop :=
  ∀ (i : Instr) (s : State) (offer : Input) (inputs : List Input) (code : Word) (r : TransactResult),
    i.WellFormed = true → s.busy = false → s.inputs = offer :: inputs →
    offer.rst = false → offer.cmdValid = true → offer.cmd = i.cmd → (∀ j ∈ inputs, j.rst = false) →
    wireCode s.rom i.op (cmdRate i.cmd) (cmdRep i.cmd) = some code →
    transact code (operationOf i).words (operationOf i).midStop inputs = some r →
    ∃ s', runFor (1 + (inputs.length - r.rest.length)) s = .next s' ∧
      s'.upc = (if r.ok then .done else .failed) ∧ s'.trace = s.trace ++ r.calls ∧ s'.inputs = r.rest ∧
      s'.sensor = commitTransaction (operationOf i).commit r.words s.sensor

/-- R111: every trace that an operation can produce is of one of the shapes T1 to T10, with the result and the words to commit that
its row gives. -/
def Obligations.TransactTracesHaveTheListedShapes : Prop :=
  ∀ (code : Word) (words : Nat) (midStop : Bool) (inputs : List Input) (r : TransactResult), words ≤ 2 →
    transact code words midStop inputs = some r →
    (r.ok = false ∧ r.words = [] ∧
      (r.calls = [.start, .addressWrite 0x44#7 false, .stop] ∨
        r.calls = [.start, .addressWrite 0x44#7 true, .data code.high false, .stop] ∨
        r.calls = [.start, .addressWrite 0x44#7 true, .data code.high true, .data code.low false, .stop])) ∨
    (words = 0 ∧ r.ok = true ∧ r.words = [] ∧ r.calls = writePhase code ++ [.stop]) ∨
    (0 < words ∧ r.ok = false ∧ r.words = [] ∧ r.calls = writePhase code ++ readOpening midStop false ++ [.stop]) ∨
    (words = 1 ∧ ∃ b0 b1 c, r.ok = frameValid b0 b1 c ∧ r.words = (if r.ok then [rawWord b0 b1] else []) ∧
      r.calls = writePhase code ++ readOpening midStop true ++ frameCalls b0 b1 c false ++ [.stop]) ∨
    (words = 2 ∧ ∃ b0 b1 c, frameValid b0 b1 c = false ∧ r.ok = false ∧ r.words = [] ∧
      r.calls = writePhase code ++ readOpening midStop true ++ frameCalls b0 b1 c true ++ [.stop]) ∨
    (words = 2 ∧ ∃ b0 b1 c d0 d1 d, frameValid b0 b1 c = true ∧ r.ok = frameValid d0 d1 d ∧
      r.words = (if r.ok then [rawWord b0 b1, rawWord d0 d1] else []) ∧
      r.calls = writePhase code ++ readOpening midStop true ++ frameCalls b0 b1 c true ++ frameCalls d0 d1 d false ++ [.stop])

/-- R113: how many starts and stops an operation makes. One of each if it writes only or fails in its write phase; past the write
phase two starts, and two stops if a stop stands between the phases, else one. -/
def Obligations.StartsAndStopsOfAnOperation : Prop :=
  ∀ (code : Word) (words : Nat) (midStop : Bool) (inputs : List Input) (r : TransactResult),
    transact code words midStop inputs = some r →
    (words = 0 ∨ r.calls[3]? ≠ some (.data code.low true) → starts r.calls = 1 ∧ stops r.calls = 1) ∧
    (0 < words → r.calls[3]? = some (.data code.low true) →
      starts r.calls = 2 ∧ stops r.calls = if midStop then 2 else 1)

/-- R133, R115 (c): nothing an earlier operation leaves behind changes the calls and the micro-states of a later one (the committed
words are not compared here). Two blocks that are not busy, whatever else they hold, with the same tables and the same inputs, of
which the first offers a command: after any number of steps without reset they have made the same calls since, and are in the same
micro-state. For a number of steps past the end of the inputs it rests on the model's choice that such steps are quiet (log
entry 2). -/
def Obligations.EarlierOperationsDoNotChangeALaterOne : Prop :=
  ∀ (s₁ s₂ : State) (offer : Input) (inputs : List Input) (n : Nat), s₁.busy = false → s₂.busy = false → s₁.rom = s₂.rom →
    s₁.inputs = offer :: inputs → s₂.inputs = offer :: inputs → offer.rst = false → offer.cmdValid = true →
    (∀ j ∈ inputs, j.rst = false) →
    ∃ s₁' s₂' calls, runFor (n + 1) s₁ = .next s₁' ∧ runFor (n + 1) s₂ = .next s₂' ∧ s₁'.upc = s₂'.upc ∧
      s₁'.trace = s₁.trace ++ calls ∧ s₂'.trace = s₂.trace ++ calls

/-- R112, R153: if every call is answered, an operation ends: from any busy state that the control invariant allows, within sixteen
steps whose inputs answer and do not reset. -/
def Obligations.EveryOperationEndsIfCallsReturn : Prop :=
  ∀ s : State, ControlInv s → s.busy = true → 16 ≤ s.inputs.length →
    (∀ j ∈ s.inputs.take 16, j.busRsp = true ∧ j.rst = false) →
    ∃ n s', n ≤ 16 ∧ runFor n s = .next s' ∧ s'.operationOver = true

/-- R82, R149 (U7): a call that never returns holds the block where it is for as long as it does not return. Waiting is a step of its
own (log entry 12); for `n` past the end of the inputs the statement rests on the model's choice that such steps are quiet (log
entry 2). -/
def Obligations.HungCallHoldsTheBlock : Prop :=
  ∀ (s : State) (n : Nat), ControlInv s → s.busRequest ≠ none → (∀ j ∈ s.inputs, j.busRsp = false ∧ j.rst = false) →
    runFor n s = .next { s with inputs := s.inputs.drop n }

/-! ## The checksum -/

/-- R90: the source's reference vector, with the register after every round. -/
def Obligations.ChecksumReferenceVector : Prop :=
  crc8 0xBEEF#16 = 0x92#8 ∧ 0xFF#8 ^^^ 0xBE#8 = 0x41#8 ∧
  (List.range 8).map (fun n => crcRounds (n + 1) 0x41#8) =
    [0x82#8, 0x35#8, 0x6A#8, 0xD4#8, 0x99#8, 0x03#8, 0x06#8, 0x0C#8] ∧
  0x0C#8 ^^^ 0xEF#8 = 0xE3#8 ∧
  (List.range 8).map (fun n => crcRounds (n + 1) 0xE3#8) =
    [0xF7#8, 0xDF#8, 0x8F#8, 0x2F#8, 0x5E#8, 0xBC#8, 0x49#8, 0x92#8]

/-- R91 (a), (b): the checksum is affine over exclusive or, and is the exclusive or of 0x81 and a fixed byte for each set bit. -/
def Obligations.ChecksumIsAffine : Prop :=
  (∀ a b : Word, crc8 (a ^^^ b) = crc8 a ^^^ crc8 b ^^^ crc8 0) ∧
  (∀ w : Word, crc8 w = 0x81#8 ^^^ xorOfSetBits w 0 bitContribution)

/-- R91 (c): for every high byte and every checksum value exactly one low byte gives that value, so each value is taken by exactly
256 words. -/
def Obligations.ChecksumHitsEveryValueEvenly : Prop :=
  ∀ high c : Byte, ∃ low : Byte, crc8 (high ++ low) = c ∧ ∀ low' : Byte, crc8 (high ++ low') = c → low' = low

/-- R91 (d): in a valid frame of 24 bits, flipping one, two or three different bits is always caught, and some four are not. -/
def Obligations.ChecksumCatchesUpToThreeFlippedBits : Prop :=
  (∀ (f : BitVec 24) (ps : List (Fin 24)), framePasses f = true → ps.Nodup → 1 ≤ ps.length → ps.length ≤ 3 →
    framePasses (flipBits f ps) = false) ∧
  (∃ ps : List (Fin 24), ps.Nodup ∧ ps.length = 4 ∧ ∀ f : BitVec 24, framePasses f = true → framePasses (flipBits f ps) = true)
end

