-- ==== Sys2Proof/Laws/State.lean ====
section
/-! SUPPORT. One lemma per field for each named update of State: what it writes, and that it leaves the rest. -/

namespace Sys2Proof.Machine

@[simp] theorem State.consume_t (s : State) : s.consume.t = s.t := rfl
@[simp] theorem State.consume_rh (s : State) : s.consume.rh = s.rh := rfl
@[simp] theorem State.consume_st (s : State) : s.consume.st = s.st := rfl
@[simp] theorem State.consume_upc (s : State) : s.consume.upc = s.upc := rfl
@[simp] theorem State.consume_opR (s : State) : s.consume.opR = s.opR := rfl
@[simp] theorem State.consume_rateR (s : State) : s.consume.rateR = s.rateR := rfl
@[simp] theorem State.consume_repR (s : State) : s.consume.repR = s.repR := rfl
@[simp] theorem State.consume_codeR (s : State) : s.consume.codeR = s.codeR := rfl
@[simp] theorem State.consume_fail (s : State) : s.consume.fail = s.fail := rfl
@[simp] theorem State.consume_widx (s : State) : s.consume.widx = s.widx := rfl
@[simp] theorem State.consume_b0 (s : State) : s.consume.b0 = s.b0 := rfl
@[simp] theorem State.consume_b1 (s : State) : s.consume.b1 = s.b1 := rfl
@[simp] theorem State.consume_c (s : State) : s.consume.c = s.c := rfl
@[simp] theorem State.consume_stage0 (s : State) : s.consume.stage0 = s.stage0 := rfl
@[simp] theorem State.consume_stage1 (s : State) : s.consume.stage1 = s.stage1 := rfl
@[simp] theorem State.consume_crc (s : State) : s.consume.crc = s.crc := rfl
@[simp] theorem State.consume_rom (s : State) : s.consume.rom = s.rom := rfl
@[simp] theorem State.consume_trace (s : State) : s.consume.trace = s.trace := rfl
@[simp] theorem State.consume_inputs (s : State) : s.consume.inputs = s.inputs.tail := rfl

@[simp] theorem State.record_t (s : State) (call : BusCall) : (s.record call).t = s.t := rfl
@[simp] theorem State.record_rh (s : State) (call : BusCall) : (s.record call).rh = s.rh := rfl
@[simp] theorem State.record_st (s : State) (call : BusCall) : (s.record call).st = s.st := rfl
@[simp] theorem State.record_upc (s : State) (call : BusCall) : (s.record call).upc = s.upc := rfl
@[simp] theorem State.record_opR (s : State) (call : BusCall) : (s.record call).opR = s.opR := rfl
@[simp] theorem State.record_rateR (s : State) (call : BusCall) : (s.record call).rateR = s.rateR := rfl
@[simp] theorem State.record_repR (s : State) (call : BusCall) : (s.record call).repR = s.repR := rfl
@[simp] theorem State.record_codeR (s : State) (call : BusCall) : (s.record call).codeR = s.codeR := rfl
@[simp] theorem State.record_fail (s : State) (call : BusCall) : (s.record call).fail = s.fail := rfl
@[simp] theorem State.record_widx (s : State) (call : BusCall) : (s.record call).widx = s.widx := rfl
@[simp] theorem State.record_b0 (s : State) (call : BusCall) : (s.record call).b0 = s.b0 := rfl
@[simp] theorem State.record_b1 (s : State) (call : BusCall) : (s.record call).b1 = s.b1 := rfl
@[simp] theorem State.record_c (s : State) (call : BusCall) : (s.record call).c = s.c := rfl
@[simp] theorem State.record_stage0 (s : State) (call : BusCall) : (s.record call).stage0 = s.stage0 := rfl
@[simp] theorem State.record_stage1 (s : State) (call : BusCall) : (s.record call).stage1 = s.stage1 := rfl
@[simp] theorem State.record_crc (s : State) (call : BusCall) : (s.record call).crc = s.crc := rfl
@[simp] theorem State.record_rom (s : State) (call : BusCall) : (s.record call).rom = s.rom := rfl
@[simp] theorem State.record_trace (s : State) (call : BusCall) : (s.record call).trace = s.trace ++ [call] := rfl
@[simp] theorem State.record_inputs (s : State) (call : BusCall) : (s.record call).inputs = s.inputs := rfl

@[simp] theorem latchCommand_t (op : BitVec 3) (rate : BitVec 3) (rep : BitVec 2) (s : State) : (latchCommand op rate rep s).t = s.t := rfl
@[simp] theorem latchCommand_rh (op : BitVec 3) (rate : BitVec 3) (rep : BitVec 2) (s : State) : (latchCommand op rate rep s).rh = s.rh := rfl
@[simp] theorem latchCommand_st (op : BitVec 3) (rate : BitVec 3) (rep : BitVec 2) (s : State) : (latchCommand op rate rep s).st = s.st := rfl
@[simp] theorem latchCommand_upc (op : BitVec 3) (rate : BitVec 3) (rep : BitVec 2) (s : State) : (latchCommand op rate rep s).upc = s.upc := rfl
@[simp] theorem latchCommand_opR (op : BitVec 3) (rate : BitVec 3) (rep : BitVec 2) (s : State) : (latchCommand op rate rep s).opR = op := rfl
@[simp] theorem latchCommand_rateR (op : BitVec 3) (rate : BitVec 3) (rep : BitVec 2) (s : State) : (latchCommand op rate rep s).rateR = rate := rfl
@[simp] theorem latchCommand_repR (op : BitVec 3) (rate : BitVec 3) (rep : BitVec 2) (s : State) : (latchCommand op rate rep s).repR = rep := rfl
@[simp] theorem latchCommand_codeR (op : BitVec 3) (rate : BitVec 3) (rep : BitVec 2) (s : State) : (latchCommand op rate rep s).codeR = s.codeR := rfl
@[simp] theorem latchCommand_fail (op : BitVec 3) (rate : BitVec 3) (rep : BitVec 2) (s : State) : (latchCommand op rate rep s).fail = false := rfl
@[simp] theorem latchCommand_widx (op : BitVec 3) (rate : BitVec 3) (rep : BitVec 2) (s : State) : (latchCommand op rate rep s).widx = 0 := rfl
@[simp] theorem latchCommand_b0 (op : BitVec 3) (rate : BitVec 3) (rep : BitVec 2) (s : State) : (latchCommand op rate rep s).b0 = s.b0 := rfl
@[simp] theorem latchCommand_b1 (op : BitVec 3) (rate : BitVec 3) (rep : BitVec 2) (s : State) : (latchCommand op rate rep s).b1 = s.b1 := rfl
@[simp] theorem latchCommand_c (op : BitVec 3) (rate : BitVec 3) (rep : BitVec 2) (s : State) : (latchCommand op rate rep s).c = s.c := rfl
@[simp] theorem latchCommand_stage0 (op : BitVec 3) (rate : BitVec 3) (rep : BitVec 2) (s : State) : (latchCommand op rate rep s).stage0 = s.stage0 := rfl
@[simp] theorem latchCommand_stage1 (op : BitVec 3) (rate : BitVec 3) (rep : BitVec 2) (s : State) : (latchCommand op rate rep s).stage1 = s.stage1 := rfl
@[simp] theorem latchCommand_crc (op : BitVec 3) (rate : BitVec 3) (rep : BitVec 2) (s : State) : (latchCommand op rate rep s).crc = s.crc := rfl
@[simp] theorem latchCommand_rom (op : BitVec 3) (rate : BitVec 3) (rep : BitVec 2) (s : State) : (latchCommand op rate rep s).rom = s.rom := rfl
@[simp] theorem latchCommand_trace (op : BitVec 3) (rate : BitVec 3) (rep : BitVec 2) (s : State) : (latchCommand op rate rep s).trace = s.trace := rfl
@[simp] theorem latchCommand_inputs (op : BitVec 3) (rate : BitVec 3) (rep : BitVec 2) (s : State) : (latchCommand op rate rep s).inputs = s.inputs := rfl

@[simp] theorem runChecksum_t (s : State) : (runChecksum s).t = s.t := rfl
@[simp] theorem runChecksum_rh (s : State) : (runChecksum s).rh = s.rh := rfl
@[simp] theorem runChecksum_st (s : State) : (runChecksum s).st = s.st := rfl
@[simp] theorem runChecksum_upc (s : State) : (runChecksum s).upc = s.upc := rfl
@[simp] theorem runChecksum_opR (s : State) : (runChecksum s).opR = s.opR := rfl
@[simp] theorem runChecksum_rateR (s : State) : (runChecksum s).rateR = s.rateR := rfl
@[simp] theorem runChecksum_repR (s : State) : (runChecksum s).repR = s.repR := rfl
@[simp] theorem runChecksum_codeR (s : State) : (runChecksum s).codeR = s.codeR := rfl
@[simp] theorem runChecksum_fail (s : State) : (runChecksum s).fail = s.fail := rfl
@[simp] theorem runChecksum_widx (s : State) : (runChecksum s).widx = s.widx := rfl
@[simp] theorem runChecksum_b0 (s : State) : (runChecksum s).b0 = s.b0 := rfl
@[simp] theorem runChecksum_b1 (s : State) : (runChecksum s).b1 = s.b1 := rfl
@[simp] theorem runChecksum_c (s : State) : (runChecksum s).c = s.c := rfl
@[simp] theorem runChecksum_stage0 (s : State) : (runChecksum s).stage0 = s.stage0 := rfl
@[simp] theorem runChecksum_stage1 (s : State) : (runChecksum s).stage1 = s.stage1 := rfl
@[simp] theorem runChecksum_crc (s : State) : (runChecksum s).crc = crc8 (rawWord s.b0 s.b1) := rfl
@[simp] theorem runChecksum_rom (s : State) : (runChecksum s).rom = s.rom := rfl
@[simp] theorem runChecksum_trace (s : State) : (runChecksum s).trace = s.trace := rfl
@[simp] theorem runChecksum_inputs (s : State) : (runChecksum s).inputs = s.inputs := rfl

@[simp] theorem raise_busNack_t (at_ : Upc) (s : State) : (raise (.busNack at_) s).t = s.t := rfl
@[simp] theorem raise_busNack_rh (at_ : Upc) (s : State) : (raise (.busNack at_) s).rh = s.rh := rfl
@[simp] theorem raise_busNack_st (at_ : Upc) (s : State) : (raise (.busNack at_) s).st = s.st := rfl
@[simp] theorem raise_busNack_upc (at_ : Upc) (s : State) : (raise (.busNack at_) s).upc = .finalStop := rfl
@[simp] theorem raise_busNack_opR (at_ : Upc) (s : State) : (raise (.busNack at_) s).opR = s.opR := rfl
@[simp] theorem raise_busNack_rateR (at_ : Upc) (s : State) : (raise (.busNack at_) s).rateR = s.rateR := rfl
@[simp] theorem raise_busNack_repR (at_ : Upc) (s : State) : (raise (.busNack at_) s).repR = s.repR := rfl
@[simp] theorem raise_busNack_codeR (at_ : Upc) (s : State) : (raise (.busNack at_) s).codeR = s.codeR := rfl
@[simp] theorem raise_busNack_fail (at_ : Upc) (s : State) : (raise (.busNack at_) s).fail = true := rfl
@[simp] theorem raise_busNack_widx (at_ : Upc) (s : State) : (raise (.busNack at_) s).widx = s.widx := rfl
@[simp] theorem raise_busNack_b0 (at_ : Upc) (s : State) : (raise (.busNack at_) s).b0 = s.b0 := rfl
@[simp] theorem raise_busNack_b1 (at_ : Upc) (s : State) : (raise (.busNack at_) s).b1 = s.b1 := rfl
@[simp] theorem raise_busNack_c (at_ : Upc) (s : State) : (raise (.busNack at_) s).c = s.c := rfl
@[simp] theorem raise_busNack_stage0 (at_ : Upc) (s : State) : (raise (.busNack at_) s).stage0 = s.stage0 := rfl
@[simp] theorem raise_busNack_stage1 (at_ : Upc) (s : State) : (raise (.busNack at_) s).stage1 = s.stage1 := rfl
@[simp] theorem raise_busNack_crc (at_ : Upc) (s : State) : (raise (.busNack at_) s).crc = s.crc := rfl
@[simp] theorem raise_busNack_rom (at_ : Upc) (s : State) : (raise (.busNack at_) s).rom = s.rom := rfl
@[simp] theorem raise_busNack_trace (at_ : Upc) (s : State) : (raise (.busNack at_) s).trace = s.trace := rfl
@[simp] theorem raise_busNack_inputs (at_ : Upc) (s : State) : (raise (.busNack at_) s).inputs = s.inputs := rfl

@[simp] theorem raise_checksumMismatch_t (word : BitVec 1) (s : State) : (raise (.checksumMismatch word) s).t = s.t := rfl
@[simp] theorem raise_checksumMismatch_rh (word : BitVec 1) (s : State) : (raise (.checksumMismatch word) s).rh = s.rh := rfl
@[simp] theorem raise_checksumMismatch_st (word : BitVec 1) (s : State) : (raise (.checksumMismatch word) s).st = s.st := rfl
@[simp] theorem raise_checksumMismatch_upc (word : BitVec 1) (s : State) : (raise (.checksumMismatch word) s).upc = .finalStop := rfl
@[simp] theorem raise_checksumMismatch_opR (word : BitVec 1) (s : State) : (raise (.checksumMismatch word) s).opR = s.opR := rfl
@[simp] theorem raise_checksumMismatch_rateR (word : BitVec 1) (s : State) : (raise (.checksumMismatch word) s).rateR = s.rateR := rfl
@[simp] theorem raise_checksumMismatch_repR (word : BitVec 1) (s : State) : (raise (.checksumMismatch word) s).repR = s.repR := rfl
@[simp] theorem raise_checksumMismatch_codeR (word : BitVec 1) (s : State) : (raise (.checksumMismatch word) s).codeR = s.codeR := rfl
@[simp] theorem raise_checksumMismatch_fail (word : BitVec 1) (s : State) : (raise (.checksumMismatch word) s).fail = true := rfl
@[simp] theorem raise_checksumMismatch_widx (word : BitVec 1) (s : State) : (raise (.checksumMismatch word) s).widx = s.widx := rfl
@[simp] theorem raise_checksumMismatch_b0 (word : BitVec 1) (s : State) : (raise (.checksumMismatch word) s).b0 = s.b0 := rfl
@[simp] theorem raise_checksumMismatch_b1 (word : BitVec 1) (s : State) : (raise (.checksumMismatch word) s).b1 = s.b1 := rfl
@[simp] theorem raise_checksumMismatch_c (word : BitVec 1) (s : State) : (raise (.checksumMismatch word) s).c = s.c := rfl
@[simp] theorem raise_checksumMismatch_stage0 (word : BitVec 1) (s : State) : (raise (.checksumMismatch word) s).stage0 = s.stage0 := rfl
@[simp] theorem raise_checksumMismatch_stage1 (word : BitVec 1) (s : State) : (raise (.checksumMismatch word) s).stage1 = s.stage1 := rfl
@[simp] theorem raise_checksumMismatch_crc (word : BitVec 1) (s : State) : (raise (.checksumMismatch word) s).crc = s.crc := rfl
@[simp] theorem raise_checksumMismatch_rom (word : BitVec 1) (s : State) : (raise (.checksumMismatch word) s).rom = s.rom := rfl
@[simp] theorem raise_checksumMismatch_trace (word : BitVec 1) (s : State) : (raise (.checksumMismatch word) s).trace = s.trace := rfl
@[simp] theorem raise_checksumMismatch_inputs (word : BitVec 1) (s : State) : (raise (.checksumMismatch word) s).inputs = s.inputs := rfl

@[simp] theorem raise_illegalCommand_t (op : BitVec 3) (rate : BitVec 3) (rep : BitVec 2) (s : State) : (raise (.illegalCommand op rate rep) s).t = s.t := rfl
@[simp] theorem raise_illegalCommand_rh (op : BitVec 3) (rate : BitVec 3) (rep : BitVec 2) (s : State) : (raise (.illegalCommand op rate rep) s).rh = s.rh := rfl
@[simp] theorem raise_illegalCommand_st (op : BitVec 3) (rate : BitVec 3) (rep : BitVec 2) (s : State) : (raise (.illegalCommand op rate rep) s).st = s.st := rfl
@[simp] theorem raise_illegalCommand_upc (op : BitVec 3) (rate : BitVec 3) (rep : BitVec 2) (s : State) : (raise (.illegalCommand op rate rep) s).upc = .failed := rfl
@[simp] theorem raise_illegalCommand_opR (op : BitVec 3) (rate : BitVec 3) (rep : BitVec 2) (s : State) : (raise (.illegalCommand op rate rep) s).opR = s.opR := rfl
@[simp] theorem raise_illegalCommand_rateR (op : BitVec 3) (rate : BitVec 3) (rep : BitVec 2) (s : State) : (raise (.illegalCommand op rate rep) s).rateR = s.rateR := rfl
@[simp] theorem raise_illegalCommand_repR (op : BitVec 3) (rate : BitVec 3) (rep : BitVec 2) (s : State) : (raise (.illegalCommand op rate rep) s).repR = s.repR := rfl
@[simp] theorem raise_illegalCommand_codeR (op : BitVec 3) (rate : BitVec 3) (rep : BitVec 2) (s : State) : (raise (.illegalCommand op rate rep) s).codeR = s.codeR := rfl
@[simp] theorem raise_illegalCommand_fail (op : BitVec 3) (rate : BitVec 3) (rep : BitVec 2) (s : State) : (raise (.illegalCommand op rate rep) s).fail = s.fail := rfl
@[simp] theorem raise_illegalCommand_widx (op : BitVec 3) (rate : BitVec 3) (rep : BitVec 2) (s : State) : (raise (.illegalCommand op rate rep) s).widx = s.widx := rfl
@[simp] theorem raise_illegalCommand_b0 (op : BitVec 3) (rate : BitVec 3) (rep : BitVec 2) (s : State) : (raise (.illegalCommand op rate rep) s).b0 = s.b0 := rfl
@[simp] theorem raise_illegalCommand_b1 (op : BitVec 3) (rate : BitVec 3) (rep : BitVec 2) (s : State) : (raise (.illegalCommand op rate rep) s).b1 = s.b1 := rfl
@[simp] theorem raise_illegalCommand_c (op : BitVec 3) (rate : BitVec 3) (rep : BitVec 2) (s : State) : (raise (.illegalCommand op rate rep) s).c = s.c := rfl
@[simp] theorem raise_illegalCommand_stage0 (op : BitVec 3) (rate : BitVec 3) (rep : BitVec 2) (s : State) : (raise (.illegalCommand op rate rep) s).stage0 = s.stage0 := rfl
@[simp] theorem raise_illegalCommand_stage1 (op : BitVec 3) (rate : BitVec 3) (rep : BitVec 2) (s : State) : (raise (.illegalCommand op rate rep) s).stage1 = s.stage1 := rfl
@[simp] theorem raise_illegalCommand_crc (op : BitVec 3) (rate : BitVec 3) (rep : BitVec 2) (s : State) : (raise (.illegalCommand op rate rep) s).crc = s.crc := rfl
@[simp] theorem raise_illegalCommand_rom (op : BitVec 3) (rate : BitVec 3) (rep : BitVec 2) (s : State) : (raise (.illegalCommand op rate rep) s).rom = s.rom := rfl
@[simp] theorem raise_illegalCommand_trace (op : BitVec 3) (rate : BitVec 3) (rep : BitVec 2) (s : State) : (raise (.illegalCommand op rate rep) s).trace = s.trace := rfl
@[simp] theorem raise_illegalCommand_inputs (op : BitVec 3) (rate : BitVec 3) (rep : BitVec 2) (s : State) : (raise (.illegalCommand op rate rep) s).inputs = s.inputs := rfl

@[simp] theorem resetBlock_t (s : State) : (resetBlock s).t = State.reset.t := rfl
@[simp] theorem resetBlock_rh (s : State) : (resetBlock s).rh = State.reset.rh := rfl
@[simp] theorem resetBlock_st (s : State) : (resetBlock s).st = State.reset.st := rfl
@[simp] theorem resetBlock_upc (s : State) : (resetBlock s).upc = State.reset.upc := rfl
@[simp] theorem resetBlock_opR (s : State) : (resetBlock s).opR = State.reset.opR := rfl
@[simp] theorem resetBlock_rateR (s : State) : (resetBlock s).rateR = State.reset.rateR := rfl
@[simp] theorem resetBlock_repR (s : State) : (resetBlock s).repR = State.reset.repR := rfl
@[simp] theorem resetBlock_codeR (s : State) : (resetBlock s).codeR = State.reset.codeR := rfl
@[simp] theorem resetBlock_fail (s : State) : (resetBlock s).fail = State.reset.fail := rfl
@[simp] theorem resetBlock_widx (s : State) : (resetBlock s).widx = State.reset.widx := rfl
@[simp] theorem resetBlock_b0 (s : State) : (resetBlock s).b0 = State.reset.b0 := rfl
@[simp] theorem resetBlock_b1 (s : State) : (resetBlock s).b1 = State.reset.b1 := rfl
@[simp] theorem resetBlock_c (s : State) : (resetBlock s).c = State.reset.c := rfl
@[simp] theorem resetBlock_stage0 (s : State) : (resetBlock s).stage0 = State.reset.stage0 := rfl
@[simp] theorem resetBlock_stage1 (s : State) : (resetBlock s).stage1 = State.reset.stage1 := rfl
@[simp] theorem resetBlock_crc (s : State) : (resetBlock s).crc = State.reset.crc := rfl
@[simp] theorem resetBlock_rom (s : State) : (resetBlock s).rom = s.rom := rfl
@[simp] theorem resetBlock_trace (s : State) : (resetBlock s).trace = State.reset.trace := rfl
@[simp] theorem resetBlock_inputs (s : State) : (resetBlock s).inputs = s.inputs.tail := rfl

@[simp] theorem commitWords_temperatureAndHumidity_t (s : State) : (commitWords .temperatureAndHumidity s).t = s.stage0 := rfl
@[simp] theorem commitWords_temperatureAndHumidity_rh (s : State) : (commitWords .temperatureAndHumidity s).rh = s.stage1 := rfl
@[simp] theorem commitWords_temperatureAndHumidity_st (s : State) : (commitWords .temperatureAndHumidity s).st = s.st := rfl
@[simp] theorem commitWords_temperatureAndHumidity_upc (s : State) : (commitWords .temperatureAndHumidity s).upc = s.upc := rfl
@[simp] theorem commitWords_temperatureAndHumidity_opR (s : State) : (commitWords .temperatureAndHumidity s).opR = s.opR := rfl
@[simp] theorem commitWords_temperatureAndHumidity_rateR (s : State) : (commitWords .temperatureAndHumidity s).rateR = s.rateR := rfl
@[simp] theorem commitWords_temperatureAndHumidity_repR (s : State) : (commitWords .temperatureAndHumidity s).repR = s.repR := rfl
@[simp] theorem commitWords_temperatureAndHumidity_codeR (s : State) : (commitWords .temperatureAndHumidity s).codeR = s.codeR := rfl
@[simp] theorem commitWords_temperatureAndHumidity_fail (s : State) : (commitWords .temperatureAndHumidity s).fail = s.fail := rfl
@[simp] theorem commitWords_temperatureAndHumidity_widx (s : State) : (commitWords .temperatureAndHumidity s).widx = s.widx := rfl
@[simp] theorem commitWords_temperatureAndHumidity_b0 (s : State) : (commitWords .temperatureAndHumidity s).b0 = s.b0 := rfl
@[simp] theorem commitWords_temperatureAndHumidity_b1 (s : State) : (commitWords .temperatureAndHumidity s).b1 = s.b1 := rfl
@[simp] theorem commitWords_temperatureAndHumidity_c (s : State) : (commitWords .temperatureAndHumidity s).c = s.c := rfl
@[simp] theorem commitWords_temperatureAndHumidity_stage0 (s : State) : (commitWords .temperatureAndHumidity s).stage0 = s.stage0 := rfl
@[simp] theorem commitWords_temperatureAndHumidity_stage1 (s : State) : (commitWords .temperatureAndHumidity s).stage1 = s.stage1 := rfl
@[simp] theorem commitWords_temperatureAndHumidity_crc (s : State) : (commitWords .temperatureAndHumidity s).crc = s.crc := rfl
@[simp] theorem commitWords_temperatureAndHumidity_rom (s : State) : (commitWords .temperatureAndHumidity s).rom = s.rom := rfl
@[simp] theorem commitWords_temperatureAndHumidity_trace (s : State) : (commitWords .temperatureAndHumidity s).trace = s.trace := rfl
@[simp] theorem commitWords_temperatureAndHumidity_inputs (s : State) : (commitWords .temperatureAndHumidity s).inputs = s.inputs := rfl

@[simp] theorem commitWords_status_t (s : State) : (commitWords .status s).t = s.t := rfl
@[simp] theorem commitWords_status_rh (s : State) : (commitWords .status s).rh = s.rh := rfl
@[simp] theorem commitWords_status_st (s : State) : (commitWords .status s).st = s.stage0 := rfl
@[simp] theorem commitWords_status_upc (s : State) : (commitWords .status s).upc = s.upc := rfl
@[simp] theorem commitWords_status_opR (s : State) : (commitWords .status s).opR = s.opR := rfl
@[simp] theorem commitWords_status_rateR (s : State) : (commitWords .status s).rateR = s.rateR := rfl
@[simp] theorem commitWords_status_repR (s : State) : (commitWords .status s).repR = s.repR := rfl
@[simp] theorem commitWords_status_codeR (s : State) : (commitWords .status s).codeR = s.codeR := rfl
@[simp] theorem commitWords_status_fail (s : State) : (commitWords .status s).fail = s.fail := rfl
@[simp] theorem commitWords_status_widx (s : State) : (commitWords .status s).widx = s.widx := rfl
@[simp] theorem commitWords_status_b0 (s : State) : (commitWords .status s).b0 = s.b0 := rfl
@[simp] theorem commitWords_status_b1 (s : State) : (commitWords .status s).b1 = s.b1 := rfl
@[simp] theorem commitWords_status_c (s : State) : (commitWords .status s).c = s.c := rfl
@[simp] theorem commitWords_status_stage0 (s : State) : (commitWords .status s).stage0 = s.stage0 := rfl
@[simp] theorem commitWords_status_stage1 (s : State) : (commitWords .status s).stage1 = s.stage1 := rfl
@[simp] theorem commitWords_status_crc (s : State) : (commitWords .status s).crc = s.crc := rfl
@[simp] theorem commitWords_status_rom (s : State) : (commitWords .status s).rom = s.rom := rfl
@[simp] theorem commitWords_status_trace (s : State) : (commitWords .status s).trace = s.trace := rfl
@[simp] theorem commitWords_status_inputs (s : State) : (commitWords .status s).inputs = s.inputs := rfl

@[simp] theorem commitWords_nothing_t (s : State) : (commitWords .nothing s).t = s.t := rfl
@[simp] theorem commitWords_nothing_rh (s : State) : (commitWords .nothing s).rh = s.rh := rfl
@[simp] theorem commitWords_nothing_st (s : State) : (commitWords .nothing s).st = s.st := rfl
@[simp] theorem commitWords_nothing_upc (s : State) : (commitWords .nothing s).upc = s.upc := rfl
@[simp] theorem commitWords_nothing_opR (s : State) : (commitWords .nothing s).opR = s.opR := rfl
@[simp] theorem commitWords_nothing_rateR (s : State) : (commitWords .nothing s).rateR = s.rateR := rfl
@[simp] theorem commitWords_nothing_repR (s : State) : (commitWords .nothing s).repR = s.repR := rfl
@[simp] theorem commitWords_nothing_codeR (s : State) : (commitWords .nothing s).codeR = s.codeR := rfl
@[simp] theorem commitWords_nothing_fail (s : State) : (commitWords .nothing s).fail = s.fail := rfl
@[simp] theorem commitWords_nothing_widx (s : State) : (commitWords .nothing s).widx = s.widx := rfl
@[simp] theorem commitWords_nothing_b0 (s : State) : (commitWords .nothing s).b0 = s.b0 := rfl
@[simp] theorem commitWords_nothing_b1 (s : State) : (commitWords .nothing s).b1 = s.b1 := rfl
@[simp] theorem commitWords_nothing_c (s : State) : (commitWords .nothing s).c = s.c := rfl
@[simp] theorem commitWords_nothing_stage0 (s : State) : (commitWords .nothing s).stage0 = s.stage0 := rfl
@[simp] theorem commitWords_nothing_stage1 (s : State) : (commitWords .nothing s).stage1 = s.stage1 := rfl
@[simp] theorem commitWords_nothing_crc (s : State) : (commitWords .nothing s).crc = s.crc := rfl
@[simp] theorem commitWords_nothing_rom (s : State) : (commitWords .nothing s).rom = s.rom := rfl
@[simp] theorem commitWords_nothing_trace (s : State) : (commitWords .nothing s).trace = s.trace := rfl
@[simp] theorem commitWords_nothing_inputs (s : State) : (commitWords .nothing s).inputs = s.inputs := rfl

@[simp] theorem stageWord_t (w : Word) (s : State) : (stageWord w s).t = s.t := by
  unfold stageWord; split <;> rfl
@[simp] theorem stageWord_rh (w : Word) (s : State) : (stageWord w s).rh = s.rh := by
  unfold stageWord; split <;> rfl
@[simp] theorem stageWord_st (w : Word) (s : State) : (stageWord w s).st = s.st := by
  unfold stageWord; split <;> rfl
@[simp] theorem stageWord_upc (w : Word) (s : State) : (stageWord w s).upc = s.upc := by
  unfold stageWord; split <;> rfl
@[simp] theorem stageWord_opR (w : Word) (s : State) : (stageWord w s).opR = s.opR := by
  unfold stageWord; split <;> rfl
@[simp] theorem stageWord_rateR (w : Word) (s : State) : (stageWord w s).rateR = s.rateR := by
  unfold stageWord; split <;> rfl
@[simp] theorem stageWord_repR (w : Word) (s : State) : (stageWord w s).repR = s.repR := by
  unfold stageWord; split <;> rfl
@[simp] theorem stageWord_codeR (w : Word) (s : State) : (stageWord w s).codeR = s.codeR := by
  unfold stageWord; split <;> rfl
@[simp] theorem stageWord_fail (w : Word) (s : State) : (stageWord w s).fail = s.fail := by
  unfold stageWord; split <;> rfl
@[simp] theorem stageWord_widx (w : Word) (s : State) : (stageWord w s).widx = s.widx := by
  unfold stageWord; split <;> rfl
@[simp] theorem stageWord_b0 (w : Word) (s : State) : (stageWord w s).b0 = s.b0 := by
  unfold stageWord; split <;> rfl
@[simp] theorem stageWord_b1 (w : Word) (s : State) : (stageWord w s).b1 = s.b1 := by
  unfold stageWord; split <;> rfl
@[simp] theorem stageWord_c (w : Word) (s : State) : (stageWord w s).c = s.c := by
  unfold stageWord; split <;> rfl
@[simp] theorem stageWord_crc (w : Word) (s : State) : (stageWord w s).crc = s.crc := by
  unfold stageWord; split <;> rfl
@[simp] theorem stageWord_rom (w : Word) (s : State) : (stageWord w s).rom = s.rom := by
  unfold stageWord; split <;> rfl
@[simp] theorem stageWord_trace (w : Word) (s : State) : (stageWord w s).trace = s.trace := by
  unfold stageWord; split <;> rfl
@[simp] theorem stageWord_inputs (w : Word) (s : State) : (stageWord w s).inputs = s.inputs := by
  unfold stageWord; split <;> rfl

/-- Two states are equal when every field is. -/
theorem State.ext_fields {s s' : State} (ht : s.t = s'.t) (hrh : s.rh = s'.rh) (hst : s.st = s'.st) (hupc : s.upc = s'.upc)
    (hop : s.opR = s'.opR) (hrate : s.rateR = s'.rateR) (hrep : s.repR = s'.repR) (hcode : s.codeR = s'.codeR)
    (hfail : s.fail = s'.fail) (hwidx : s.widx = s'.widx) (hb0 : s.b0 = s'.b0) (hb1 : s.b1 = s'.b1) (hc : s.c = s'.c)
    (hs0 : s.stage0 = s'.stage0) (hs1 : s.stage1 = s'.stage1) (hcrc : s.crc = s'.crc) (hrom : s.rom = s'.rom)
    (htr : s.trace = s'.trace) (hin : s.inputs = s'.inputs) : s = s' := by
  cases s; cases s'; simp_all

end Sys2Proof.Machine
end

