-- ==== Sys2Proof/Laws/Ops.lean ====
section
/-! SUPPORT. One lemma per shared operation that says once what it can do: the calls of the Bus Capability, accept, staging,
the catalog, the command word. -/

namespace Sys2Proof.Machine

/-! ### The input of a step -/

@[simp] theorem State.input_cons (s : State) (i : Input) (rest : List Input) (h : s.inputs = i :: rest) : s.input = i := by
  simp [State.input, h]

@[simp] theorem State.input_nil (s : State) (h : s.inputs = []) : s.input = .quiet := by
  simp [State.input, h]

/-- With nothing more scripted, sampling changes nothing. -/
theorem State.consume_of_nil (s : State) (h : s.inputs = []) : s.consume = s := by
  cases s; simp_all [State.consume]

/-! ### The bus calls: answered or not -/

theorem busStart_answered {s : State} {next : State → State} (h : s.input.busRsp = true) :
    busStart s next = next (s.consume.record .start) := by simp [busStart, h]

theorem busStart_waits {s : State} {next : State → State} (h : s.input.busRsp = false) : busStart s next = s.consume := by
  simp [busStart, h]

theorem busStop_answered {s : State} {next : State → State} (h : s.input.busRsp = true) :
    busStop s next = next (s.consume.record .stop) := by simp [busStop, h]

theorem busStop_waits {s : State} {next : State → State} (h : s.input.busRsp = false) : busStop s next = s.consume := by
  simp [busStop, h]

theorem busSendAddressWrite_answered {a : BusAddress} {s : State} {next : Bool → State → State} (h : s.input.busRsp = true) :
    busSendAddressWrite a s next = next s.input.busAckIn (s.consume.record (.addressWrite a s.input.busAckIn)) := by
  simp [busSendAddressWrite, h]

theorem busSendAddressWrite_waits {a : BusAddress} {s : State} {next : Bool → State → State} (h : s.input.busRsp = false) :
    busSendAddressWrite a s next = s.consume := by simp [busSendAddressWrite, h]

theorem busSendAddressRead_answered {a : BusAddress} {s : State} {next : Bool → State → State} (h : s.input.busRsp = true) :
    busSendAddressRead a s next = next s.input.busAckIn (s.consume.record (.addressRead a s.input.busAckIn)) := by
  simp [busSendAddressRead, h]

theorem busSendAddressRead_waits {a : BusAddress} {s : State} {next : Bool → State → State} (h : s.input.busRsp = false) :
    busSendAddressRead a s next = s.consume := by simp [busSendAddressRead, h]

theorem busSendData_answered {b : Byte} {s : State} {next : Bool → State → State} (h : s.input.busRsp = true) :
    busSendData b s next = next s.input.busAckIn (s.consume.record (.data b s.input.busAckIn)) := by
  simp [busSendData, h]

theorem busSendData_waits {b : Byte} {s : State} {next : Bool → State → State} (h : s.input.busRsp = false) :
    busSendData b s next = s.consume := by simp [busSendData, h]

theorem busReadData_answered {ack : Bool} {s : State} {next : Byte → State → State} (h : s.input.busRsp = true) :
    busReadData ack s next = next s.input.busRdata (s.consume.record (.read ack s.input.busRdata)) := by
  simp [busReadData, h]

theorem busReadData_waits {ack : Bool} {s : State} {next : Byte → State → State} (h : s.input.busRsp = false) :
    busReadData ack s next = s.consume := by simp [busReadData, h]

/-! ### Staging -/

theorem stageWord_first {w : Word} {s : State} (h : s.widx = 0#1) : stageWord w s = { s with stage0 := w } := by
  simp [stageWord, h]

theorem stageWord_second {w : Word} {s : State} (h : s.widx = 1#1) : stageWord w s = { s with stage1 := w } := by
  simp [stageWord, h]

/-- A one-bit index is 0 or 1. -/
theorem widx_cases (w : BitVec 1) : w = 0#1 ∨ w = 1#1 := by revert w; decide

/-! ### Words and bytes -/

/-- The bits of a received word, by byte. -/
theorem rawWord_getLsbD (b0 b1 : Byte) (i : Nat) :
    (rawWord b0 b1).getLsbD i = if i < 8 then b1.getLsbD i else b0.getLsbD (i - 8) :=
  BitVec.getLsbD_append

@[simp] theorem rawWord_high (b0 b1 : Byte) : (rawWord b0 b1).high = b0 := by
  apply BitVec.eq_of_getLsbD_eq
  intro i hi
  simp [Word.high, rawWord_getLsbD, hi]

@[simp] theorem rawWord_low (b0 b1 : Byte) : (rawWord b0 b1).low = b1 := by
  apply BitVec.eq_of_getLsbD_eq
  intro i hi
  simp [Word.low, rawWord_getLsbD, hi]

/-! ### The catalog -/

/-- A table read inside the table gives its entry. -/
theorem readPmsb_of_lt (rom : CommandRom) {rate : Nat} (h : rate < 5) : rom.readPmsb rate = some rom.pmsb[rate] := by
  simp [CommandRom.readPmsb, h]

theorem readPlsb_of_lt (rom : CommandRom) {index : Nat} (h : index < 15) : rom.readPlsb index = some rom.plsb[index] := by
  simp [CommandRom.readPlsb, h]

theorem legalOperands_iff (rate : BitVec 3) (rep : BitVec 2) :
    legalOperands rate rep = true ↔ rate.toNat < 5 ∧ rep.toNat < 3 := by
  revert rate rep; decide

/-- The operand bits of an operation, taken apart as accept latches them and put together again. -/
theorem ignored_append (ignored : BitVec 5) : ignoredRate ignored ++ ignoredRep ignored = ignored := by
  revert ignored; decide

theorem ignoredRate_append (rate : BitVec 3) (rep : BitVec 2) : ignoredRate (rate ++ rep) = rate := by
  revert rate rep; decide

theorem ignoredRep_append (rate : BitVec 3) (rep : BitVec 2) : ignoredRep (rate ++ rep) = rep := by
  revert rate rep; decide

/-- The parameters of an operation carry the number and the operand bits that its command register holds. -/
theorem operationOf_latched {op : BitVec 3} {rate : BitVec 3} {rep : BitVec 2} {i : Instr} (h : Instr.ofFields op rate rep = some i) :
    (operationOf i).op = op ∧ (operationOf i).rate = rate ∧ (operationOf i).rep = rep := by
  revert h
  unfold Instr.ofFields
  split <;> intro h <;> cases h <;>
    simp_all [operationOf, softResetOperation, setPeriodicOperation, fetchOperation, singleShotOperation, readStatusOperation,
      clearStatusOperation, breakOperation, ignoredRate_append, ignoredRep_append] <;>
    exact BitVec.eq_of_toNat_eq (by simp_all)

/-! ### Accept -/

theorem acceptCommand_illegal {op : BitVec 3} {rate : BitVec 3} {rep : BitVec 2} {s : State}
    (h : wireCode s.rom op rate rep = none) :
    acceptCommand op rate rep s = raise (.illegalCommand op rate rep) (latchCommand op rate rep s.consume) := by
  simp [acceptCommand, h]

theorem acceptCommand_legal {op : BitVec 3} {rate : BitVec 3} {rep : BitVec 2} {s : State} {code : Word}
    (h : wireCode s.rom op rate rep = some code) :
    acceptCommand op rate rep s = { latchCommand op rate rep s.consume with codeR := code, upc := .wStart } := by
  simp [acceptCommand, h]

end Sys2Proof.Machine
end

