-- ==== Sys2Proof/Laws/PerInstr.lean ====
section
/-! SUPPORT. Statements about every operation as syntax, one lemma per constructor. -/

namespace Sys2Proof.Laws

/-- The match value of an operation's row in spec/opcode_table.json; the row's mask is 0xE0. -/
def tableMatch : Instr → Byte
  | .softReset _ => 0x00#8
  | .setPeriodic _ _ => 0x20#8
  | .fetch _ => 0x40#8
  | .singleShot _ => 0x60#8
  | .readStatus _ => 0x80#8
  | .clearStatus _ => 0xA0#8
  | .breakOp _ => 0xC0#8

/-- The command word of an operation matches its own row of the opcode table. -/
def OpcodeRow.Statement (i : Instr) : Prop := i.cmd &&& 0xE0#8 = tableMatch i

theorem OpcodeRow.softReset (ignored : BitVec 5) : OpcodeRow.Statement (.softReset ignored) := by
  unfold OpcodeRow.Statement; revert ignored; decide

theorem OpcodeRow.setPeriodic (rate : BitVec 3) (rep : BitVec 2) : OpcodeRow.Statement (.setPeriodic rate rep) := by
  unfold OpcodeRow.Statement; revert rate rep; decide

theorem OpcodeRow.fetch (ignored : BitVec 5) : OpcodeRow.Statement (.fetch ignored) := by
  unfold OpcodeRow.Statement; revert ignored; decide

theorem OpcodeRow.singleShot (ignored : BitVec 5) : OpcodeRow.Statement (.singleShot ignored) := by
  unfold OpcodeRow.Statement; revert ignored; decide

theorem OpcodeRow.readStatus (ignored : BitVec 5) : OpcodeRow.Statement (.readStatus ignored) := by
  unfold OpcodeRow.Statement; revert ignored; decide

theorem OpcodeRow.clearStatus (ignored : BitVec 5) : OpcodeRow.Statement (.clearStatus ignored) := by
  unfold OpcodeRow.Statement; revert ignored; decide

theorem OpcodeRow.breakOp (ignored : BitVec 5) : OpcodeRow.Statement (.breakOp ignored) := by
  unfold OpcodeRow.Statement; revert ignored; decide

end Sys2Proof.Laws
end

