-- ==== Sys2Proof/Laws/Step.lean ====
section
/-! SUPPORT. What `exec` and `step` can do, once for all operations. -/

namespace Sys2Proof.Machine

/-- Every operation's meaning is its micro-step with the operation's own parameters. -/
theorem exec_eq_microStep (i : Instr) (s : State) : exec i s = .next (microStep (operationOf i) s) := by
  cases i <;> rfl

/-- What a step of the block is: a reset, one micro-step of the running operation, the stop of a state that no run reaches,
the accept of an operation, the refusal of the reserved number, or waiting. -/
theorem step_cases (s : State) :
    (s.input.rst = true ∧ step s = .next (resetBlock s)) ∨
    (s.input.rst = false ∧ s.busy = true ∧ ∃ i, s.latched = some i ∧ step s = .next (microStep (operationOf i) s)) ∨
    (s.input.rst = false ∧ s.busy = true ∧ s.latched = none ∧ step s = .fault .reservedOperationRunning) ∨
    (s.input.rst = false ∧ s.busy = false ∧ s.input.cmdValid = true ∧
      ∃ i rest, decode (offeredBytes s) = .ok (i, rest) ∧ step s = .next (microStep (operationOf i) s)) ∨
    (s.input.rst = false ∧ s.busy = false ∧ s.input.cmdValid = true ∧
      ∃ e, decode (offeredBytes s) = .error e ∧ step s = .next (acceptReserved s)) ∨
    (s.input.rst = false ∧ s.busy = false ∧ s.input.cmdValid = false ∧ step s = .next (waitForCommand s)) := by
  unfold step
  cases hr : s.input.rst
  · cases hb : s.busy
    · cases hv : s.input.cmdValid
      · simp
      · cases hd : decode (offeredBytes s) with
        | error e => simp
        | ok p => obtain ⟨i, rest⟩ := p; simp [exec_eq_microStep]
    · cases hl : s.latched with
      | none => simp
      | some i => simp [exec_eq_microStep]
  · simp

/-- A block that is not busy accepts. -/
theorem microStep_of_not_busy {o : Operation} {s : State} (h : s.busy = false) : microStep o s = acceptCommand o.op o.rate o.rep s := by
  unfold microStep
  cases hu : s.upc <;> simp_all [State.busy, Upc.busy]

/-- One lemma per busy micro-state: which micro-step fires. -/
theorem microStep_wStart {o : Operation} {s : State} (h : s.upc = .wStart) : microStep o s = stepWStart s := by simp [microStep, h]
theorem microStep_wAddr {o : Operation} {s : State} (h : s.upc = .wAddr) : microStep o s = stepWAddr s := by simp [microStep, h]
theorem microStep_wMsb {o : Operation} {s : State} (h : s.upc = .wMsb) : microStep o s = stepWMsb s := by simp [microStep, h]
theorem microStep_wLsb {o : Operation} {s : State} (h : s.upc = .wLsb) : microStep o s = stepWLsb o s := by simp [microStep, h]
theorem microStep_midStop {o : Operation} {s : State} (h : s.upc = .midStop) : microStep o s = stepMidStop s := by simp [microStep, h]
theorem microStep_rStart {o : Operation} {s : State} (h : s.upc = .rStart) : microStep o s = stepRStart s := by simp [microStep, h]
theorem microStep_rAddr {o : Operation} {s : State} (h : s.upc = .rAddr) : microStep o s = stepRAddr s := by simp [microStep, h]
theorem microStep_rB0 {o : Operation} {s : State} (h : s.upc = .rB0) : microStep o s = stepRB0 s := by simp [microStep, h]
theorem microStep_rB1 {o : Operation} {s : State} (h : s.upc = .rB1) : microStep o s = stepRB1 s := by simp [microStep, h]
theorem microStep_rCrc {o : Operation} {s : State} (h : s.upc = .rCrc) : microStep o s = stepRCrc o s := by simp [microStep, h]
theorem microStep_check {o : Operation} {s : State} (h : s.upc = .check) : microStep o s = stepCheck o s := by simp [microStep, h]
theorem microStep_finalStop {o : Operation} {s : State} (h : s.upc = .finalStop) : microStep o s = stepFinalStop o s := by
  simp [microStep, h]

/-! ### Runs of steps, and the replies a transaction waits for -/

@[simp] theorem runFor_zero (s : State) : runFor 0 s = .next s := rfl

/-- A run goes on from the state that its first step gives. -/
theorem runFor_succ_of_next {s s' : State} (n : Nat) (h : step s = .next s') : runFor (n + 1) s = runFor n s' := by
  simp [runFor, h]

/-- A run of `m + n` steps is a run of `n` from where one of `m` ends. -/
theorem runFor_add_of_next {s s' : State} (m n : Nat) (h : runFor m s = .next s') : runFor (m + n) s = runFor n s' := by
  induction m generalizing s with
  | zero => cases h; simp
  | succ m ih =>
    rw [Nat.succ_add]
    simp only [runFor] at h ⊢
    cases hs : step s with
    | next s₁ => rw [hs] at h; exact ih h
    | fault r => rw [hs] at h; cases h
    | refused r => rw [hs] at h; cases h

/-- Only the reserved number names no operation. -/
theorem ofFields_eq_none_iff (op : BitVec 3) (rate : BitVec 3) (rep : BitVec 2) :
    Instr.ofFields op rate rep = none ↔ op = 7#3 := by
  revert op rate rep; decide

/-- A busy state that the control invariant allows has a running operation. -/
theorem ControlInv.latched_of_busy {s : State} (h : ControlInv s) (hb : s.busy = true) : ∃ i, s.latched = some i := by
  have hl := h.legal hb
  cases hx : s.latched with
  | some i => exact ⟨i, rfl⟩
  | none =>
    rw [State.latched, ofFields_eq_none_iff] at hx
    simp [illegalCommand, hx] at hl

/-- A busy step without reset is the micro-step of the running operation. -/
theorem step_of_busy {s : State} {i : Instr} (hr : s.input.rst = false) (hb : s.busy = true) (hl : s.latched = some i) :
    step s = .next (microStep (operationOf i) s) := by
  simp [step, hr, hb, hl, exec_eq_microStep]

/-- No operation reads more than two words. -/
theorem operationOf_words_le (i : Instr) : (operationOf i).words ≤ 2 := by
  cases i <;> simp [operationOf, softResetOperation, setPeriodicOperation, fetchOperation, singleShotOperation, readStatusOperation,
    clearStatusOperation, breakOperation]

/-- `K(op_r)` of a running operation is that of its parameters. -/
theorem State.words_of_latched {s : State} {i : Instr} (h : s.latched = some i) : s.words = (operationOf i).words := by
  simp [State.words, h]

/-- The reply that a call takes is the first answering input; the ones before it do not answer. -/
theorem awaitReply_eq_some {inputs rest : List Input} {i : Input} (h : awaitReply inputs = some (i, rest)) :
    i.busRsp = true ∧ ∃ waiting, inputs = waiting ++ i :: rest ∧ ∀ j ∈ waiting, j.busRsp = false := by
  induction inputs with
  | nil => simp [awaitReply] at h
  | cons a tail ih =>
    cases ha : a.busRsp
    · obtain ⟨hi, waiting, hw, hn⟩ := ih (by simpa [awaitReply, ha] using h)
      exact ⟨hi, a :: waiting, by simp [hw], by simpa [ha] using hn⟩
    · obtain ⟨rfl, rfl⟩ : a = i ∧ tail = rest := by simpa [awaitReply, ha] using h
      exact ⟨ha, [], by simp, by simp⟩

end Sys2Proof.Machine
end

