-- ==== Sys2Proof/Machine/Platform.lean ====
section
/-! DEFINITION. The block with a host and an environment around it: a host that issues the command words of a program one
after the other, each when the block is not busy (30_encoding.md R74, 70_reset_and_hazards.md R146, R153), and an environment that
answers from a script (40_bus_primitives.md R82: "a test scripts them"). It drives the block's inputs and changes nothing in it.
The conventions are log entry 17. -/

namespace Sys2Proof.Machine

/-- One scripted answer. -/
inductive Answer where
  /-- The `ack` result of a `send_` call. -/
  | ack (acknowledged : Bool)
  /-- The byte of a `read_data`. -/
  | byte (value : Byte)
  deriving DecidableEq, Repr

/-- The whole: the block, the command words still to be issued, the answers still to be given. -/
structure Platform where
  block : State
  program : List Byte
  answers : List Answer
  deriving DecidableEq, Repr

/-- The environment's inputs for an outstanding call and the answers left: `start` and `stop` return nothing and take no
answer; a call whose answer the script does not hold stays outstanding. -/
def answerRequest (q : BusRequest) (answers : List Answer) : Input × List Answer :=
  match q, answers with
  | .start, _ => (Input.reply false 0, answers)
  | .stop, _ => (Input.reply false 0, answers)
  | .sendAddressWrite _, .ack a :: rest => (Input.reply a 0, rest)
  | .sendAddressRead _, .ack a :: rest => (Input.reply a 0, rest)
  | .sendData _, .ack a :: rest => (Input.reply a 0, rest)
  | .readData _, .byte b :: rest => (Input.reply false b, rest)
  | _, _ => (Input.quiet, answers)

/-- What the host and the environment drive in the next step, with the program and the answers left after it. -/
def Platform.drive (p : Platform) : Input × List Byte × List Answer :=
  if p.block.busy then
    match p.block.busRequest with
    | none => (Input.quiet, p.program, p.answers)
    | some q => ((answerRequest q p.answers).1, p.program, (answerRequest q p.answers).2)
  else
    match p.program with
    | [] => (Input.quiet, [], p.answers)
    | cmd :: rest => (Input.offer cmd, rest, p.answers)

/-- One step of the whole. -/
def Platform.step (p : Platform) : Host.Outcome Platform Fault Refusal :=
  match Sys2Proof.Machine.step { p.block with inputs := [p.drive.1] } with
  | .next block => .next ⟨block, p.drive.2.1, p.drive.2.2⟩
  | .fault r => .fault r
  | .refused r => .refused r

/-- The program is over: its last operation is (70_reset_and_hazards.md R154). -/
def Platform.programOver (p : Platform) : Bool := p.program.isEmpty && p.block.operationOver

end Sys2Proof.Machine
end

