-- ==== Sys2Proof/Tests/Slice0.lean ====
section
/-! SUPPORT. Small tests, with expected results from the spec's tables and examples, and a witness for every statement that has
hypotheses. -/

namespace Sys2Proof.Tests

open Sys2Proof Sys2Proof.Machine Sys2Proof.Statements

/-! ## States to test on -/

/-- `T`, `RH`, `ST` as 95_test_vectors.md 2.3 starts from, with the given inputs. -/
def idleWith (inputs : List Input) : State :=
  { State.reset with t := 0x1111, rh := 0x2222, st := 0x3333, inputs := inputs }

/-- The operation number `op` running in the micro-state `u`, with the wire code `code` and the given inputs. -/
def running (op : BitVec 3) (code : Word) (u : Upc) (inputs : List Input) : State :=
  { idleWith inputs with upc := u, opR := op, codeR := code }

/-- The state that a step answers, if it answers one. -/
def nextOf (o : Host.Outcome State Fault Refusal) : Option State :=
  match o with
  | .next s => some s
  | .fault _ => none
  | .refused _ => none

/-- An acknowledging reply, and one that does not acknowledge. -/
def ack : Input := Input.reply true 0
def nack : Input := Input.reply false 0

/-! ## WellFormed refuses ill-formed operations (R71) -/

theorem test_rate_5_is_ill_formed : (Instr.setPeriodic 5 0).WellFormed = false := by decide
theorem test_rep_3_is_ill_formed : (Instr.setPeriodic 4 3).WellFormed = false := by decide
theorem test_rate_4_rep_2_is_well_formed : (Instr.setPeriodic 4 2).WellFormed = true := by decide

/-! ## Words written out from R62 and R63 (95_test_vectors.md 2.2) -/

theorem test_decode_soft_reset : decode [0b000_00000#8] = .ok (.softReset 0, []) := by decide
theorem test_decode_soft_reset_ignored : decode [0b000_11111#8] = .ok (.softReset 31, []) := by decide
theorem test_decode_set_periodic : decode [0b001_001_10#8] = .ok (.setPeriodic 1 2, []) := by decide
theorem test_decode_set_periodic_highest : decode [0b001_100_10#8] = .ok (.setPeriodic 4 2, []) := by decide
theorem test_decode_fetch : decode [0b010_00000#8] = .ok (.fetch 0, []) := by decide
theorem test_decode_fetch_ignored : decode [0b010_11111#8] = .ok (.fetch 31, []) := by decide
theorem test_decode_single_shot : decode [0b011_00000#8] = .ok (.singleShot 0, []) := by decide
theorem test_decode_read_status : decode [0b100_00000#8] = .ok (.readStatus 0, []) := by decide
theorem test_decode_clear_status : decode [0b101_00000#8] = .ok (.clearStatus 0, []) := by decide
theorem test_decode_break : decode [0b110_00000#8] = .ok (.breakOp 0, []) := by decide
theorem test_decode_reserved : decode [0b111_00000#8] = .error .reservedOp := by decide
theorem test_decode_nothing : decode [] = .error .noByte := by decide
theorem test_encode_set_periodic : encode (.setPeriodic 1 2) = [0x26#8] := by decide

/-- R71: 207 of the 256 command words are legal. -/
theorem test_count_of_legal_words :
    ((List.range 256).filter fun n => !illegalCommand (cmdOp (BitVec.ofNat 8 n)) (cmdRate (BitVec.ofNat 8 n))
      (cmdRep (BitVec.ofNat 8 n))).length = 207 := by decide +kernel

/-! ## The checksum (95_test_vectors.md 2.1) -/

theorem test_crc_reference : crc8 0xBEEF#16 = 0x92#8 := by decide +kernel
theorem test_crc_vectors :
    crc8 0x0100#16 = 0x75#8 ∧ crc8 0x0000#16 = 0x81#8 ∧ crc8 0xFFFF#16 = 0xAC#8 ∧ crcByte 0xFF#8 0x12#8 = 0x8D#8 := by
  decide +kernel

/-- R91 (e), (f): a bus stuck low or high gives no valid frame, and corner values. -/
theorem test_crc_corners :
    frameValid 0 0 0 = false ∧ frameValid 0xFF 0xFF 0xFF = false ∧ crc8 0xFF00#16 = 0x00#8 ∧ crc8 0x00AC#16 = 0x00#8 ∧
      crc8 0x8000#16 = 0xA2#8 := by decide +kernel

/-- Frames that the tests below receive: three valid ones, and two with a wrong checksum byte. -/
theorem test_frames :
    frameValid 0xBE 0xEF 0x92 = true ∧ frameValid 0 0 0x81 = true ∧ frameValid 0xFF 0xFF 0xAC = true ∧
      frameValid 0xBE 0xEF 0 = false ∧ frameValid 0xBE 0xEF 0x93 = false ∧ crc8 (rawWord 0xBE 0xEF) = 0x92 ∧
      crc8 (rawWord 0xBE 0xEF) ≠ 0 := by decide +kernel

/-! ## Each operation, one step (43_operations.md R116 to R122, 95_test_vectors.md 2.3) -/

/-- V-S22: the ignored bits change nothing on the bus, and are latched (R95). -/
theorem test_soft_reset_is_accepted :
    (nextOf (step (idleWith [Input.offer 0x1F]))).map (fun s => (s.upc, s.codeR, s.rateR, s.repR, s.trace)) =
      some (.wStart, 0x30A2, 7, 3, []) := by decide

/-- V-S1: the low byte of 0x30A2, and no read phase. -/
theorem test_soft_reset_low_byte :
    (nextOf (exec (.softReset 0) (running 0 0x30A2 .wLsb [ack]))).map (fun s => (s.upc, s.trace)) =
      some (.finalStop, [.data 0xA2 true]) := by decide

/-- V-E6 under the default tables. -/
theorem test_set_periodic_is_accepted :
    (nextOf (step (idleWith [Input.offer 0x26]))).map (fun s => (s.upc, s.opR, s.codeR)) = some (.wStart, 1, 0x2130) := by decide

/-- V-D14: refused at once, `done` = 1, `ok` = 0. -/
theorem test_set_periodic_out_of_range :
    (nextOf (exec (.setPeriodic 4 3) (idleWith []))).map (fun s => (s.upc, s.fail, s.codeR, s.done, s.ok)) =
      some (.failed, false, 0, true, false) := by decide

/-- V-S10: both words in one step. -/
theorem test_fetch_commits :
    (nextOf (exec (.fetch 0) { running 2 0xE000 .finalStop [ack] with stage0 := 0xBEEF, stage1 := 0x1234 })).map
      (fun s => (s.upc, s.t, s.rh, s.st)) = some (.done, 0xBEEF, 0x1234, 0x3333) := by decide

/-- V-S9: nothing is committed after a failure. -/
theorem test_fetch_failed_commits_nothing :
    (nextOf (exec (.fetch 0) { running 2 0xE000 .finalStop [ack] with fail := true, stage0 := 0xBEEF })).map
      (fun s => (s.upc, s.t, s.rh)) = some (.failed, 0x1111, 0x2222) := by decide

/-- V-S11: the intermediate stop follows the write phase. -/
theorem test_single_shot_stops_between :
    (nextOf (exec (.singleShot 0) (running 3 0x2C06 .wLsb [ack]))).map (fun s => (s.upc, s.trace)) =
      some (.midStop, [.data 0x06 true]) := by decide

/-- V-S12: the second word fails its check and is not staged. -/
theorem test_single_shot_second_word_fails :
    (nextOf (exec (.singleShot 0)
      { running 3 0x2C06 .check [] with widx := 1, stage0 := 0x6450, b0 := 0x80, b1 := 0x10, c := 0xE0 })).map
      (fun s => (s.upc, s.fail, s.stage0, s.stage1)) = some (.finalStop, true, 0x6450, 0) := by decide +kernel

/-- V-S14: the only checksum byte of a one-word read is not acknowledged. -/
theorem test_read_status_last_byte :
    (nextOf (exec (.readStatus 0) (running 4 0xF32D .rCrc [Input.reply false 0x92]))).map (fun s => (s.upc, s.c, s.trace)) =
      some (.check, 0x92, [.read false 0x92]) := by decide

/-- V-S14: the commit goes to `ST` alone. -/
theorem test_read_status_commits :
    (nextOf (exec (.readStatus 0) { running 4 0xF32D .finalStop [ack] with stage0 := 0xBEEF })).map
      (fun s => (s.t, s.rh, s.st)) = some (0x1111, 0x2222, 0xBEEF) := by decide

/-- V-S4: the low byte is not acknowledged. -/
theorem test_clear_status_nack :
    (nextOf (exec (.clearStatus 0) (running 5 0x3041 .wLsb [nack]))).map (fun s => (s.upc, s.fail, s.trace)) =
      some (.finalStop, true, [.data 0x41 false]) := by decide

/-- V-S27: `ST` is not cleared. -/
theorem test_clear_status_keeps_st :
    (nextOf (exec (.clearStatus 0) (running 5 0x3041 .finalStop [ack]))).map (fun s => (s.upc, s.st)) =
      some (.done, 0x3333) := by decide

/-- V-S3: the high byte is not acknowledged. -/
theorem test_break_nack :
    (nextOf (exec (.breakOp 0) (running 6 0x3093 .wMsb [nack]))).map (fun s => (s.upc, s.fail, s.trace)) =
      some (.finalStop, true, [.data 0x30 false]) := by decide

/-- V-D8. -/
theorem test_break_is_accepted :
    (nextOf (step (idleWith [Input.offer 0xC0]))).map (fun s => (s.upc, s.codeR)) = some (.wStart, 0x3093) := by decide

/-! ## The step (95_test_vectors.md 2.5) -/

/-- V-R3: an offer while busy is ignored. -/
theorem test_offer_while_busy :
    (nextOf (step (running 2 0xE000 .rB1 [{ Input.reply false 0xEF with cmdValid := true, cmd := 0 }]))).map
      (fun s => (s.upc, s.opR, s.b1)) = some (.rCrc, 2, 0xEF) := by decide

/-- V-R7: reset in mid-operation. -/
theorem test_reset_while_busy :
    nextOf (step { running 2 0xE000 .rB0 [{ Input.quiet with rst := true }] with trace := [.start] }) = some State.reset := by decide

/-- V-R6: a call that is not answered. -/
theorem test_unanswered_call : nextOf (step (running 2 0xE000 .rAddr [])) = some (running 2 0xE000 .rAddr []) := by decide

/-- V-S19: the reserved number. -/
theorem test_reserved_number :
    (nextOf (step (idleWith [Input.offer 0xE0]))).map (fun s => (s.upc, s.opR, s.done, s.ok, s.trace)) =
      some (.failed, 7, true, false, []) := by decide

/-- R36: a bracket is open at `R_START` for FETCH and not for SINGLE_SHOT. -/
theorem test_bracket_at_read_start :
    (running 2 0xE000 .rStart []).bracketOpen = true ∧ (running 3 0x2C06 .rStart []).bracketOpen = false := by decide

/-- withFetchWord makes the next step run the word. -/
theorem test_fetch_word_runs :
    step (State.reset.withFetchWord 8 0x80) = exec (.readStatus 0) (State.reset.withFetchWord 8 0x80) := rfl

/-- R74, P1: the encoding of program P1 (95_test_vectors.md Part 3). -/
theorem test_assemble_p1 :
    assemble [["SET_PERIODIC", "MPS_1", "HIGH"], ["FETCH"], ["BREAK"]] = some [0x26#8, 0x40#8, 0xC0#8] := by decide

/-- R74: the platform's host offers its first line to an idle block. -/
theorem test_platform_offers :
    (Platform.drive ⟨State.reset, [0x40], []⟩) = (Input.offer 0x40, [], []) := by decide

/-! ## Witnesses: the hypotheses of each statement can be met -/

theorem witness_RstOverridesEverything : (running 3 0x2C06 .check [{ Input.quiet with rst := true }]).input.rst = true := by decide

theorem witness_DecodedBytesAreTheEncoding : decode [0xDF#8, 0x01#8] = .ok (.breakOp 31, [0x01#8]) := by decide

theorem witness_WireCodesOfTheSevenOperations : (4#3).toNat < 5 ∧ (2#2).toNat < 3 := by decide

theorem witness_CatalogIsNeverWritten : ∃ s', step State.reset = .next s' := ⟨_, rfl⟩

theorem witness_StepRunsTheDecodedInstruction_accept :
    (idleWith [Input.offer 0x5F]).input.rst = false ∧ (idleWith [Input.offer 0x5F]).busy = false ∧
      (idleWith [Input.offer 0x5F]).input.cmdValid = true ∧
      decode [(idleWith [Input.offer 0x5F]).input.cmd] = .ok (.fetch 31, []) := by decide

theorem witness_StepRunsTheDecodedInstruction_busy :
    (running 6 0x3093 .wAddr [ack]).input.rst = false ∧ (running 6 0x3093 .wAddr [ack]).busy = true ∧
      Instr.ofFields (running 6 0x3093 .wAddr [ack]).opR (running 6 0x3093 .wAddr [ack]).rateR
        (running 6 0x3093 .wAddr [ack]).repR = some (.breakOp 0) := by decide

theorem witness_ReservedNumberIsRefusedAtAccept :
    (idleWith [Input.offer 0xFF]).input.rst = false ∧ (idleWith [Input.offer 0xFF]).busy = false ∧
      (idleWith [Input.offer 0xFF]).input.cmdValid = true ∧ cmdOp (idleWith [Input.offer 0xFF]).input.cmd = 7#3 := by decide

theorem witness_BlockWaitsForACommand :
    (idleWith [ack]).input.rst = false ∧ (idleWith [ack]).busy = false ∧ (idleWith [ack]).input.cmdValid = false := by decide

theorem witness_OffersWhileBusyAreIgnored :
    (running 2 0xE000 .finalStop [ack]).busy = true ∧ (running 2 0xE000 .finalStop [ack]).inputs = ack :: [] := by decide

/-- A reading state that meets the control invariant. -/
theorem running_fetch_inv (inputs : List Input) : ControlInv (running 2 0xE000 .wAddr inputs) :=
  ⟨fun _ => rfl, fun _ => rfl, (by intro h; cases h), (by intro h; cases h), (by intro h; cases h), fun _ _ _ => rfl,
    (by intro h; cases h), (by intro h; cases h)⟩

/-- The same in the check of the second word, which is wrong. -/
def badSecondWord (inputs : List Input) : State :=
  { running 2 0xE000 .check inputs with widx := 1, b0 := 0xBE, b1 := 0xEF, c := 0x00 }

theorem badSecondWord_inv (inputs : List Input) : ControlInv (badSecondWord inputs) :=
  ⟨fun _ => rfl, fun _ => rfl, (by intro h; cases h), fun _ => (by decide : (0:Nat) < 2), fun _ => (by decide : (1:Nat) < 2),
    (by intro _ h; cases h), (by intro h; cases h), (by intro h; cases h)⟩

theorem singleShot_midStop_inv (inputs : List Input) : ControlInv (running 3 0x2C06 .midStop inputs) :=
  ⟨fun _ => rfl, fun _ => rfl, fun _ => rfl, (by intro h; cases h), (by intro h; cases h), fun _ _ _ => rfl,
    (by intro h; cases h), (by intro h; cases h)⟩

theorem witness_StopsOnlyOnARunningReservedNumber :
    (running 7 0 .wStart []).input.rst = false ∧ (running 7 0 .wStart []).busy = true ∧ (running 7 0 .wStart []).opR = 7#3 := by
  decide

theorem witness_StopsOnlyOnARunningReservedNumber_safe : ControlInv (running 2 0xE000 .wAddr [nack]) := running_fetch_inv _

theorem witness_LegalOperationIsAccepted :
    (Instr.setPeriodic 4 2).WellFormed = true ∧ ({ idleWith [] with upc := .failed } : State).busy = false := by decide

theorem witness_IllegalSetPeriodicIsRefused :
    (4 < (5#3).toNat ∨ (0#2).toNat = 3) ∧ (4 < (4#3).toNat ∨ (3#2).toNat = 3) ∧ (idleWith []).busy = false := by decide

theorem witness_WritePhaseOpensWithAStart :
    (running 0 0x30A2 .wStart [ack]).upc = .wStart ∧ (running 0 0x30A2 .wStart [ack]).input.busRsp = true := by decide

theorem witness_DeviceIsAddressedForWriting :
    (running 0 0x30A2 .wAddr [ack]).upc = .wAddr ∧ (running 0 0x30A2 .wAddr [ack]).input.busRsp = true ∧
      (running 0 0x30A2 .wAddr [ack]).input.busAckIn = true ∧ (running 0 0x30A2 .wAddr [nack]).upc = .wAddr ∧
      (running 0 0x30A2 .wAddr [nack]).input.busRsp = true ∧ (running 0 0x30A2 .wAddr [nack]).input.busAckIn = false := by decide

theorem witness_HighByteIsSentFirst :
    (running 0 0x30A2 .wMsb [ack]).upc = .wMsb ∧ (running 0 0x30A2 .wMsb [ack]).input.busRsp = true ∧
      (running 0 0x30A2 .wMsb [ack]).input.busAckIn = true ∧ (running 0 0x30A2 .wMsb [nack]).upc = .wMsb ∧
      (running 0 0x30A2 .wMsb [nack]).input.busRsp = true ∧ (running 0 0x30A2 .wMsb [nack]).input.busAckIn = false := by decide

theorem witness_LowByteEndsTheWritePhase :
    (running 0 0x30A2 .wLsb [ack]).upc = .wLsb ∧ (running 0 0x30A2 .wLsb [ack]).input.busRsp = true ∧
      (running 0 0x30A2 .wLsb [ack]).input.busAckIn = true ∧ (running 0 0x30A2 .wLsb [nack]).upc = .wLsb ∧
      (running 0 0x30A2 .wLsb [nack]).input.busRsp = true ∧ (running 0 0x30A2 .wLsb [nack]).input.busAckIn = false := by decide

theorem witness_IntermediateStopOpensTheReadPhase :
    (running 3 0x2C06 .midStop [ack]).upc = .midStop ∧ (running 3 0x2C06 .midStop [ack]).input.busRsp = true ∧
      ControlInv (running 3 0x2C06 .midStop [ack]) := ⟨rfl, rfl, singleShot_midStop_inv _⟩

/-- A running SINGLE_SHOT at the end of its write phase, and a READ_STATUS that has addressed the device again. -/
theorem singleShot_wLsb_inv (inputs : List Input) : ControlInv (running 3 0x2C06 .wLsb inputs) :=
  ⟨fun _ => rfl, fun _ => rfl, (by intro h; cases h), (by intro h; cases h), (by intro h; cases h), fun _ _ _ => rfl,
    (by intro h; cases h), (by intro h; cases h)⟩

theorem readStatus_rAddr_inv (inputs : List Input) : ControlInv (running 4 0xF32D .rAddr inputs) :=
  ⟨fun _ => rfl, fun _ => rfl, (by intro h; cases h), fun _ => (by decide : (0:Nat) < 1), (by intro h; cases h),
    fun _ _ _ => rfl, (by intro h; cases h), (by intro h; cases h)⟩

theorem witness_LowByteEndsTheWritePhase_document :
    ControlInv (running 3 0x2C06 .wLsb [ack]) ∧ (running 3 0x2C06 .wLsb [ack]).latched = some (.singleShot 0) ∧
      (running 3 0x2C06 .wLsb [ack]).input.busRsp = true ∧ (running 3 0x2C06 .wLsb [ack]).input.busAckIn = true :=
  ⟨singleShot_wLsb_inv _, rfl, rfl, rfl⟩

theorem witness_DeviceIsAddressedForReading_document :
    ControlInv (running 4 0xF32D .rAddr [ack]) ∧ (running 4 0xF32D .rAddr [ack]).input.busRsp = true ∧
      (running 4 0xF32D .rAddr [ack]).input.busAckIn = true := ⟨readStatus_rAddr_inv _, rfl, rfl⟩

theorem witness_ReadPhaseOpensWithAStart :
    (running 2 0xE000 .rStart [ack]).upc = .rStart ∧ (running 2 0xE000 .rStart [ack]).input.busRsp = true ∧
      (running 2 0xE000 .rStart [ack]).latched = some (.fetch 0) ∧
      (running 4 0xF32D .rStart [ack]).latched = some (.readStatus 0) ∧
      (running 3 0x2C06 .rStart [ack]).latched = some (.singleShot 0) := by decide

theorem witness_DeviceIsAddressedForReading :
    (running 4 0xF32D .rAddr [ack]).upc = .rAddr ∧ (running 4 0xF32D .rAddr [ack]).input.busRsp = true ∧
      (running 4 0xF32D .rAddr [ack]).input.busAckIn = true ∧ (running 4 0xF32D .rAddr [nack]).upc = .rAddr ∧
      (running 4 0xF32D .rAddr [nack]).input.busRsp = true ∧ (running 4 0xF32D .rAddr [nack]).input.busAckIn = false := by decide

theorem witness_DataBytesAreReadAndLatched :
    (running 4 0xF32D .rB0 [ack]).upc = .rB0 ∧ (running 4 0xF32D .rB0 [ack]).input.busRsp = true ∧
      (running 4 0xF32D .rB1 [ack]).upc = .rB1 ∧ (running 4 0xF32D .rB1 [ack]).input.busRsp = true := by decide

theorem witness_ChecksumByteIsReadAndLatched :
    (running 2 0xE000 .rCrc [ack]).upc = .rCrc ∧ (running 2 0xE000 .rCrc [ack]).input.busRsp = true := by decide

theorem witness_CheckStagesOrAborts :
    ({ running 2 0xE000 .check [] with b0 := 0xBE, b1 := 0xEF, c := 0x92 } : State).upc = .check ∧
      crc8 (rawWord 0xBE 0xEF) = 0x92 ∧ crc8 (rawWord 0xBE 0xEF) ≠ 0x00 ∧
      (running 2 0xE000 .check []).widx = 0 ∧ (badSecondWord []).widx = 1 :=
  ⟨rfl, test_frames.2.2.2.2.2.1, test_frames.2.2.2.2.2.2, rfl, rfl⟩

theorem witness_FailedOperationClosesWithAStop :
    ({ running 2 0xE000 .finalStop [ack] with fail := true } : State).upc = .finalStop ∧
      ({ running 2 0xE000 .finalStop [ack] with fail := true } : State).fail = true ∧
      ({ running 2 0xE000 .finalStop [ack] with fail := true } : State).input.busRsp = true := by decide

theorem witness_UnansweredCallWaits :
    (running 2 0xE000 .rCrc []).busRequest ≠ none ∧ (running 2 0xE000 .rCrc []).input.busRsp = false := by decide

/-- For the statements on how the operations complete. -/
theorem witness_WriteOnlyOperationsComplete :
    (running 0 0x30A2 .finalStop [ack]).upc = .finalStop ∧ (running 0 0x30A2 .finalStop [ack]).fail = false ∧
      (running 0 0x30A2 .finalStop [ack]).input.busRsp = true := by decide

theorem witness_ReadOperationsComplete :
    (running 3 0x2C06 .finalStop [ack]).upc = .finalStop ∧ (running 3 0x2C06 .finalStop [ack]).fail = false ∧
      (running 3 0x2C06 .finalStop [ack]).input.busRsp = true := by decide

theorem witness_WriteOnlyOperationsRunToDone :
    (Instr.setPeriodic 4 2).WellFormed = true ∧ (operationOf (.setPeriodic 4 2)).words = 0 ∧
      (idleWith (Input.offer 0x32 :: (acks 5 ++ []))).busy = false ∧
      wireCode (idleWith (Input.offer 0x32 :: (acks 5 ++ []))).rom (Instr.setPeriodic 4 2).op
        (cmdRate (Instr.setPeriodic 4 2).cmd) (cmdRep (Instr.setPeriodic 4 2).cmd) = some 0x2737 ∧
      (idleWith (Input.offer 0x32 :: (acks 5 ++ []))).inputs = Input.offer (Instr.setPeriodic 4 2).cmd :: (acks 5 ++ []) := by
  decide

theorem witness_MeasurementsRunToDone :
    (idleWith (Input.offer (Instr.fetch 0).cmd ::
        (acks 6 ++ frameReplies 0xBE 0xEF 0x92 ++ frameReplies 0 0 0x81 ++ acks 1 ++ []))).busy = false ∧
      (idleWith (Input.offer (Instr.singleShot 0).cmd ::
        (acks 7 ++ frameReplies 0xBE 0xEF 0x92 ++ frameReplies 0 0 0x81 ++ acks 1 ++ []))).busy = false ∧
      frameValid 0xBE 0xEF 0x92 = true ∧ frameValid 0 0 0x81 = true := ⟨rfl, rfl, test_frames.1, test_frames.2.1⟩

theorem witness_ReadStatusRunsToDone :
    (idleWith (Input.offer (Instr.readStatus 0).cmd :: (acks 6 ++ frameReplies 0xFF 0xFF 0xAC ++ acks 1 ++ []))).busy = false ∧
      frameValid 0xFF 0xFF 0xAC = true := ⟨rfl, test_frames.2.2.1⟩

theorem witness_SecondWordMismatchCommitsNothing :
    (idleWith (Input.offer (Instr.fetch 0).cmd ::
        (acks 6 ++ frameReplies 0xBE 0xEF 0x92 ++ frameReplies 0xBE 0xEF 0 ++ acks 1 ++ []))).busy = false ∧
      (idleWith (Input.offer (Instr.singleShot 0).cmd ::
        (acks 7 ++ frameReplies 0xBE 0xEF 0x92 ++ frameReplies 0xBE 0xEF 0 ++ acks 1 ++ []))).busy = false ∧
      frameValid 0xBE 0xEF 0x92 = true ∧ frameValid 0xBE 0xEF 0 = false := ⟨rfl, rfl, test_frames.1, test_frames.2.2.2.1⟩

theorem witness_SensorStateFrame : ∃ s', exec (.fetch 0) (running 2 0xE000 .finalStop [ack]) = .next s' := ⟨_, rfl⟩

theorem witness_InternalRegisterFrame : ∃ s', exec (.readStatus 0) (running 4 0xF32D .check []) = .next s' := ⟨_, rfl⟩

theorem witness_TraceRecordsThePortCall :
    (running 2 0xE000 .rB0 [ack]).input.rst = false ∧ ∃ s', step (running 2 0xE000 .rB0 [ack]) = .next s' := ⟨rfl, _, rfl⟩

theorem witness_EveryAddressCallCarriesTheDeviceAddress :
    (running 2 0xE000 .rAddr [ack]).input.rst = false ∧
      (∃ s', step (running 2 0xE000 .rAddr [ack]) = .next s' ∧ s'.trace = [] ++ [.addressRead 0x44 true]) ∧
      (∃ s', step (running 2 0xE000 .wAddr [ack]) = .next s' ∧ s'.trace = [] ++ [.addressWrite 0x44 true]) ∧
      (running 2 0xE000 .wAddr [ack]).busRequest = some (.sendAddressWrite 0x44) :=
  ⟨rfl, ⟨_, rfl, rfl⟩, ⟨_, rfl, rfl⟩, rfl⟩

theorem witness_OnlyASuccessChangesTheSensorState :
    ∃ s', step { running 4 0xF32D .finalStop [ack] with stage0 := 0xBEEF } = .next s' ∧
      s'.sensor ≠ (running 4 0xF32D .finalStop [ack]).sensor := ⟨_, rfl, by decide⟩

theorem witness_FailuresEnterFailed :
    ControlInv (running 2 0xE000 .wAddr [nack, ack]) ∧ (running 2 0xE000 .wAddr [nack, ack]).upc ∈ [.wAddr, .wMsb, .wLsb, .rAddr] ∧
      (running 2 0xE000 .wAddr [nack, ack]).inputs = nack :: ack :: [] ∧ nack.rst = false ∧ ack.rst = false ∧
      nack.busRsp = true ∧ nack.busAckIn = false ∧ ack.busRsp = true ∧
      (running 2 0xE000 .wAddr [nack, ack]).busRequest = some (.sendAddressWrite 0x44) :=
  ⟨running_fetch_inv _, by decide, rfl, rfl, rfl, rfl, rfl, rfl, rfl⟩

theorem witness_FailuresEnterFailed_check :
    ControlInv (badSecondWord [ack, ack]) ∧ (badSecondWord [ack, ack]).upc = .check ∧
      crc8 (rawWord (badSecondWord [ack, ack]).b0 (badSecondWord [ack, ack]).b1) ≠ (badSecondWord [ack, ack]).c ∧
      (badSecondWord [ack, ack]).inputs = ack :: ack :: [] ∧ ack.rst = false ∧ ack.busRsp = true :=
  ⟨badSecondWord_inv _, rfl, test_frames.2.2.2.2.2.2, rfl, rfl, rfl⟩

theorem witness_FailureLeavesOnlyTheClosingStop :
    (running 2 0xE000 .rAddr [nack]).input.rst = false ∧ StepFails (running 2 0xE000 .rAddr [nack]) ∧
      (running 2 0xE000 .rAddr [nack]).fail = false ∧ ∃ s', step (running 2 0xE000 .rAddr [nack]) = .next s' ∧ s'.fail = true :=
  ⟨rfl, .inl ⟨by decide, rfl, rfl⟩, rfl, _, rfl, rfl⟩

theorem witness_FailureLeavesOnlyTheClosingStop_check : StepFails (badSecondWord []) := .inr ⟨rfl, test_frames.2.2.2.2.2.2⟩

theorem witness_ControlInvariantIsKept :
    ControlInv (running 2 0xE000 .wAddr [ack]) ∧ ∃ s', step (running 2 0xE000 .wAddr [ack]) = .next s' :=
  ⟨running_fetch_inv _, _, rfl⟩

/-- A state after the start of a write phase, with its trace. -/
def opened (inputs : List Input) : State := { running 2 0xE000 .wAddr inputs with trace := [.start], t := 0, rh := 0, st := 0 }

theorem opened_inv (inputs : List Input) : ControlInv (opened inputs) :=
  ⟨fun _ => rfl, fun _ => rfl, (by intro h; cases h), (by intro h; cases h), (by intro h; cases h), fun _ _ _ => rfl,
    (by intro h; cases h), (by intro h; cases h)⟩

theorem witness_BracketContractIsKept :
    ControlInv (opened [nack]) ∧ TraceInv (opened [nack]) ∧ ∃ s', step (opened [nack]) = .next s' :=
  ⟨opened_inv _, ⟨.opened, rfl, rfl⟩, _, rfl⟩

/-- A state that has received the word 0xBEEF as the temperature and is in the check of the humidity word. -/
def receiving (inputs : List Input) : State :=
  { badSecondWord inputs with
    t := 0, rh := 0, st := 0, c := 0x92, stage0 := 0xBEEF
    trace := writePhase 0xE000 ++ readOpening false true ++ frameCalls 0xBE 0xEF 0x92 true ++ frameCalls 0xBE 0xEF 0x92 false }

theorem receiving_inv (inputs : List Input) : ControlInv (receiving inputs) :=
  ⟨fun _ => rfl, fun _ => rfl, (by intro h; cases h), fun _ => (by decide : (0:Nat) < 2), fun _ => (by decide : (1:Nat) < 2), (by intro _ h; cases h),
    (by intro h; cases h), (by intro h; cases h)⟩

theorem receiving_dataInv (inputs : List Input) : DataInv (receiving inputs) :=
  ⟨.inl rfl, .inl rfl, .inl rfl, (by intro h; cases h), (by intro h; cases h),
    fun _ => ⟨writePhase 0xE000 ++ readOpening false true ++ frameCalls 0xBE 0xEF 0x92 true, false, rfl⟩,
    fun _ _ => ⟨writePhase 0xE000 ++ readOpening false true, frameCalls 0xBE 0xEF 0x92 false, true, by
      rw [show (receiving inputs).stage0 = 0xBEEF#16 from rfl, test_crc_reference]; rfl⟩,
    (by intro h; cases h), (by intro h; cases h)⟩

theorem witness_SensorStateHoldsOnlyValidatedWords :
    ControlInv (receiving []) ∧ DataInv (receiving []) ∧ ∃ s', step (receiving []) = .next s' :=
  ⟨receiving_inv _, receiving_dataInv _, _, rfl⟩

theorem witness_BracketIsOpenAsTheMicroStateSays : TraceInv (opened []) ∧ TraceInv State.reset ∧ State.reset.busy = false :=
  ⟨⟨.opened, rfl, rfl⟩, ⟨.closed, rfl, rfl⟩, rfl⟩

theorem witness_DocumentStateFollowsItsTransitions :
    ControlInv (receiving []) ∧ (receiving []).input.rst = false ∧ ∃ s', step (receiving []) = .next s' :=
  ⟨receiving_inv _, rfl, _, rfl⟩

/-- The inputs of a READ_STATUS that is answered promptly with the word 0x0000. -/
def statusReplies : List Input := acks 6 ++ frameReplies 0 0 0x81 ++ acks 1

theorem witness_MicroStepsRefineTransact :
    (Instr.readStatus 0).WellFormed = true ∧ (idleWith (Input.offer 0x80 :: statusReplies)).busy = false ∧
      (Input.offer 0x80).rst = false ∧ (Input.offer 0x80).cmdValid = true ∧ (Input.offer 0x80).cmd = (Instr.readStatus 0).cmd ∧
      (∀ j ∈ statusReplies, j.rst = false) ∧
      wireCode (idleWith (Input.offer 0x80 :: statusReplies)).rom (Instr.readStatus 0).op (cmdRate (Instr.readStatus 0).cmd)
        (cmdRep (Instr.readStatus 0).cmd) = some 0xF32D := by decide

/-- Also for the two statements on the traces of `transact`. -/
theorem witness_MicroStepsRefineTransact_result :
    (transact 0xF32D (operationOf (.readStatus 0)).words (operationOf (.readStatus 0)).midStop statusReplies).isSome = true := by
  decide +kernel

theorem witness_TransactTracesHaveTheListedShapes : 1 ≤ 2 ∧ (transact 0xF32D 1 false statusReplies).isSome = true :=
  ⟨by decide, witness_MicroStepsRefineTransact_result⟩

theorem witness_StartsAndStopsOfAnOperation :
    (transact 0xF32D 1 false statusReplies).map (fun r => r.calls[3]?) = some (some (.data 0x2D true)) ∧
      (transact 0x30A2 0 false (acks 5)).isSome = true := by decide +kernel

theorem witness_EarlierOperationsDoNotChangeALaterOne :
    (idleWith (Input.offer 0x80 :: statusReplies)).busy = false ∧
      ({ idleWith (Input.offer 0x80 :: statusReplies) with upc := .failed, fail := true, widx := 1 } : State).busy = false ∧
      (Input.offer 0x80).rst = false ∧ (Input.offer 0x80).cmdValid = true ∧ (∀ j ∈ statusReplies, j.rst = false) := by decide

theorem witness_EveryOperationEndsIfCallsReturn :
    ControlInv (running 2 0xE000 .wAddr (acks 16)) ∧ (running 2 0xE000 .wAddr (acks 16)).busy = true ∧
      16 ≤ (running 2 0xE000 .wAddr (acks 16)).inputs.length ∧
      ∀ j ∈ (running 2 0xE000 .wAddr (acks 16)).inputs.take 16, j.busRsp = true ∧ j.rst = false :=
  ⟨running_fetch_inv _, rfl, by decide, by decide⟩

theorem witness_HungCallHoldsTheBlock :
    ControlInv (running 2 0xE000 .wAddr [Input.quiet, Input.offer 0]) ∧
      (running 2 0xE000 .wAddr [Input.quiet, Input.offer 0]).busRequest ≠ none ∧
      ∀ j ∈ (running 2 0xE000 .wAddr [Input.quiet, Input.offer 0]).inputs, j.busRsp = false ∧ j.rst = false :=
  ⟨running_fetch_inv _, by decide, by decide⟩

theorem witness_ChecksumCatchesUpToThreeFlippedBits :
    framePasses (frameOf 0xBEEF 0x92) = true ∧ [(0 : Fin 24), 11, 23].Nodup := ⟨test_frames.1, by decide⟩

theorem witness_ChecksumHitsEveryValueEvenly : crc8 ((0x00#8 : Byte) ++ (0xAC#8 : Byte)) = 0x00#8 :=
  test_crc_corners.2.2.2.1

end Sys2Proof.Tests
end

section
/-! PROOFS. A step adds to the trace the call that the bus port presents (10_state.md R24), and every address call carries the
device address (10_state.md R32, 40_bus_primitives.md R85). -/

namespace Sys2Proof.Machine

/-! ### What a step adds to the trace -/

/-- The calls that a step completes: the one on the bus port if the environment answers it. -/
def State.portCalls (s : State) : List BusCall :=
  match s.busRequest with
  | some q => if s.input.busRsp then [q.completed s.input] else []
  | none => []

theorem State.portCalls_of_request {s : State} {q : BusRequest} (h : s.busRequest = some q) :
    s.portCalls = if s.input.busRsp then [q.completed s.input] else [] := by
  simp [State.portCalls, h]

theorem State.portCalls_of_no_request {s : State} (h : s.busRequest = none) : s.portCalls = [] := by
  simp [State.portCalls, h]

theorem State.busRequest_of_not_busy {s : State} (h : s.busy = false) : s.busRequest = none := by
  cases hu : s.upc <;> simp_all [State.busRequest, State.busy, Upc.busy]

/-- All six calls of the Bus Capability have this shape: the outstanding request is recorded when it is answered, and how the
micro-step goes on makes no further call. -/
theorem call_trace {s : State} {q : BusRequest} {next : State → State} (hq : s.busRequest = some q)
    (hn : ∀ u, (next u).trace = u.trace) :
    (if s.input.busRsp then next (s.consume.record (q.completed s.input)) else s.consume).trace = s.trace ++ s.portCalls := by
  rw [State.portCalls_of_request hq]
  split <;> simp [hn]

theorem busStart_trace {s : State} {next : State → State} (hq : s.busRequest = some .start)
    (hn : ∀ u, (next u).trace = u.trace) : (busStart s next).trace = s.trace ++ s.portCalls :=
  call_trace hq hn

theorem busStop_trace {s : State} {next : State → State} (hq : s.busRequest = some .stop)
    (hn : ∀ u, (next u).trace = u.trace) : (busStop s next).trace = s.trace ++ s.portCalls :=
  call_trace hq hn

theorem busSendAddressWrite_trace {a : BusAddress} {s : State} {next : Bool → State → State}
    (hq : s.busRequest = some (.sendAddressWrite a)) (hn : ∀ ack u, (next ack u).trace = u.trace) :
    (busSendAddressWrite a s next).trace = s.trace ++ s.portCalls :=
  call_trace hq (hn s.input.busAckIn)

theorem busSendAddressRead_trace {a : BusAddress} {s : State} {next : Bool → State → State}
    (hq : s.busRequest = some (.sendAddressRead a)) (hn : ∀ ack u, (next ack u).trace = u.trace) :
    (busSendAddressRead a s next).trace = s.trace ++ s.portCalls :=
  call_trace hq (hn s.input.busAckIn)

theorem busSendData_trace {b : Byte} {s : State} {next : Bool → State → State}
    (hq : s.busRequest = some (.sendData b)) (hn : ∀ ack u, (next ack u).trace = u.trace) :
    (busSendData b s next).trace = s.trace ++ s.portCalls :=
  call_trace hq (hn s.input.busAckIn)

theorem busReadData_trace {ack : Bool} {s : State} {next : Byte → State → State}
    (hq : s.busRequest = some (.readData ack)) (hn : ∀ byte u, (next byte u).trace = u.trace) :
    (busReadData ack s next).trace = s.trace ++ s.portCalls :=
  call_trace hq (hn s.input.busRdata)

@[simp] theorem acceptCommand_trace (op : BitVec 3) (rate : BitVec 3) (rep : BitVec 2) (s : State) :
    (acceptCommand op rate rep s).trace = s.trace := by
  cases h : wireCode s.rom op rate rep with
  | none => simp [acceptCommand_illegal h]
  | some code => simp [acceptCommand_legal h]

/-- Neither the way on after an acknowledge nor the failure after a NACK makes a call. -/
theorem goOn_or_busNack_trace (after at_ : Upc) (ack : Bool) (u : State) :
    (if ack then { u with upc := after } else raise (.busNack at_) u).trace = u.trace := by
  cases ack <;> rfl

@[simp] theorem commitWords_trace (commit : Commit) (s : State) : (commitWords commit s).trace = s.trace := by
  cases commit <;> rfl

@[simp] theorem wordValid_trace (o : Operation) (s : State) : (wordValid o s).trace = s.trace := by
  unfold wordValid
  split <;> simp

@[simp] theorem stepCheck_trace (o : Operation) (s : State) : (stepCheck o s).trace = s.trace := by
  simp only [stepCheck]
  split <;> simp

/-- A micro-step makes the call on the bus port. The operation counts only through `K`, which the acknowledge of `R_CRC`
depends on. -/
theorem microStep_trace {o : Operation} {s : State} (hw : s.busy = true → o.words = s.words) :
    (microStep o s).trace = s.trace ++ s.portCalls := by
  cases hb : s.busy with
  | false => simp [microStep_of_not_busy hb, State.portCalls_of_no_request (State.busRequest_of_not_busy hb)]
  | true =>
    cases hu : s.upc with
    | idle | done | failed => simp [State.busy, Upc.busy, hu] at hb
    | wStart => rw [microStep_wStart hu]; exact busStart_trace (by simp [State.busRequest, hu]) fun _ => rfl
    | wAddr =>
      rw [microStep_wAddr hu]
      exact busSendAddressWrite_trace (by simp [State.busRequest, hu]) (goOn_or_busNack_trace _ _)
    | wMsb => rw [microStep_wMsb hu]; exact busSendData_trace (by simp [State.busRequest, hu]) (goOn_or_busNack_trace _ _)
    | wLsb => rw [microStep_wLsb hu]; exact busSendData_trace (by simp [State.busRequest, hu]) (goOn_or_busNack_trace _ _)
    | midStop => rw [microStep_midStop hu]; exact busStop_trace (by simp [State.busRequest, hu]) fun _ => rfl
    | rStart => rw [microStep_rStart hu]; exact busStart_trace (by simp [State.busRequest, hu]) fun _ => rfl
    | rAddr =>
      rw [microStep_rAddr hu]
      exact busSendAddressRead_trace (by simp [State.busRequest, hu]) (goOn_or_busNack_trace _ _)
    | rB0 => rw [microStep_rB0 hu]; exact busReadData_trace (by simp [State.busRequest, hu]) fun _ _ => rfl
    | rB1 => rw [microStep_rB1 hu]; exact busReadData_trace (by simp [State.busRequest, hu]) fun _ _ => rfl
    | rCrc =>
      rw [microStep_rCrc hu]
      exact busReadData_trace (by simp [State.busRequest, hu, hw hb]) fun _ _ => rfl
    | check =>
      have hq : s.busRequest = none := by simp [State.busRequest, hu]
      simp [microStep_check hu, State.portCalls_of_no_request hq]
    | finalStop =>
      rw [microStep_finalStop hu]
      refine busStop_trace (by simp [State.busRequest, hu]) fun u => ?_
      split <;> simp

/-- A step without reset adds the completed call of the bus port to the trace, and nothing else. -/
theorem step_trace {s s' : State} (hr : s.input.rst = false) (hs : step s = .next s') :
    s'.trace = s.trace ++ s.portCalls := by
  have idle (hb : s.busy = false) : s.portCalls = [] := State.portCalls_of_no_request (State.busRequest_of_not_busy hb)
  obtain ⟨hr', -⟩ | ⟨-, -, i, hl, h⟩ | ⟨-, -, -, h⟩ | ⟨-, hb, -, i, -, -, h⟩ | ⟨-, hb, -, -, -, h⟩ | ⟨-, hb, -, h⟩ :=
    step_cases s
  · simp [hr] at hr'
  all_goals rw [h] at hs; cases hs
  · exact microStep_trace fun _ => (State.words_of_latched hl).symm
  · exact microStep_trace fun hb' => by simp [hb] at hb'
  · simp [acceptReserved, idle hb]
  · simp [waitForCommand, idle hb]

/-! ### The requests of the bus port and their trace entries -/

/-- A single completed call is that of the outstanding request. -/
theorem State.busRequest_of_portCalls {s : State} {call : BusCall} (h : s.portCalls = [call]) :
    ∃ q, s.busRequest = some q ∧ q.completed s.input = call := by
  cases hq : s.busRequest with
  | none => simp [State.portCalls_of_no_request hq] at h
  | some q =>
    rw [State.portCalls_of_request hq] at h
    split at h
    · exact ⟨q, rfl, by simpa using h⟩
    · cases h

/-- When a step adds one call, that call completes the outstanding request. -/
theorem busRequest_of_step_trace {s s' : State} {call : BusCall} (hr : s.input.rst = false) (hs : step s = .next s')
    (ht : s'.trace = s.trace ++ [call]) : ∃ q, s.busRequest = some q ∧ q.completed s.input = call :=
  State.busRequest_of_portCalls (List.append_cancel_left ((step_trace hr hs).symm.trans ht))

/-- The address that a request carries, with either intent. -/
def BusRequest.address : BusRequest → Option BusAddress
  | .sendAddressWrite a => some a
  | .sendAddressRead a => some a
  | .start => none
  | .stop => none
  | .sendData _ => none
  | .readData _ => none

theorem BusRequest.address_of_completed_addressWrite {q : BusRequest} {i : Input} {a : BusAddress} {ack : Bool}
    (h : q.completed i = .addressWrite a ack) : q.address = some a := by
  cases q with
  | sendAddressWrite b => cases h; rfl
  | start | stop | sendAddressRead | sendData | readData => cases h

theorem BusRequest.address_of_completed_addressRead {q : BusRequest} {i : Input} {a : BusAddress} {ack : Bool}
    (h : q.completed i = .addressRead a ack) : q.address = some a := by
  cases q with
  | sendAddressRead b => cases h; rfl
  | start | stop | sendAddressWrite | sendData | readData => cases h

/-- Kinds 6 and 7 are never driven (R85). -/
theorem BusRequest.kind_lt_six (q : BusRequest) : q.kind.toNat < 6 := by
  cases q <;> simp [BusRequest.kind]

/-- Kinds 2 and 3 are the address calls, whose `bus_wdata` is the address below a zero bit 7 (R85). -/
theorem BusRequest.wdata_of_address_kind {q : BusRequest} (h : q.kind = 2#3 ∨ q.kind = 3#3) :
    ∃ a, q.address = some a ∧ q.wdata = some (0#1 ++ a) := by
  cases q with
  | sendAddressWrite a | sendAddressRead a => exact ⟨a, rfl, rfl⟩
  | start | stop | sendData | readData => simp [BusRequest.kind] at h

/-- R32: `W_ADDR` and `R_ADDR`, the only micro-states that send an address, send the constant. -/
theorem State.busRequest_address {s : State} {q : BusRequest} {a : BusAddress} (hq : s.busRequest = some q)
    (ha : q.address = some a) : a = Config.deviceAddr := by
  have h : s.busRequest.bind BusRequest.address = some a := by simp [hq, ha]
  cases hu : s.upc with
  | wAddr | rAddr => simpa [State.busRequest, BusRequest.address, hu, eq_comm] using h
  | idle | wStart | wMsb | wLsb | midStop | rStart | rB0 | rB1 | rCrc | check | finalStop | done | failed =>
    simp [State.busRequest, BusRequest.address, hu] at h

/-- Settles O42: a call added to the trace completes the request on the bus port, and a request carries no address but the
device's. -/
theorem everyAddressCallCarriesTheDeviceAddress : Obligations.EveryAddressCallCarriesTheDeviceAddress := by
  intro s s' hr hs
  refine ⟨fun a k ht => ?_, fun a k ht => ?_, fun q hq => ⟨q.kind_lt_six, fun hk => ?_⟩⟩
  · obtain ⟨q, hq, hc⟩ := busRequest_of_step_trace hr hs ht
    exact State.busRequest_address hq (BusRequest.address_of_completed_addressWrite hc)
  · obtain ⟨q, hq, hc⟩ := busRequest_of_step_trace hr hs ht
    exact State.busRequest_address hq (BusRequest.address_of_completed_addressRead hc)
  · obtain ⟨a, ha, hw⟩ := BusRequest.wdata_of_address_kind hk
    rw [hw, State.busRequest_address hq ha]
    rfl

end Sys2Proof.Machine
end

section
/-! PROOFS. The wire code of a legal command comes from one of the catalog's three tables (20_memory.md R39, R41, R42,
30_encoding.md R65). -/

namespace Sys2Proof.Machine

/-- The table of fixed codes has no entry for the numbers 1 and 7. -/
theorem codeEntry_isSome_iff (op : BitVec 3) : (codeEntry op).isSome = true ↔ op ≠ 1#3 ∧ op ≠ 7#3 := by
  revert op; decide

/-- An operation with a fixed code has that code, whatever its operand bits. -/
theorem wireCode_of_codeEntry {op : BitVec 3} {code : Word} (h : codeEntry op = some code) (rom : CommandRom)
    (rate : BitVec 3) (rep : BitVec 2) : wireCode rom op rate rep = some code := by
  obtain ⟨h1, h7⟩ := (codeEntry_isSome_iff op).mp (by simp [h])
  simp [wireCode, illegalCommand, h1, h7, h]

/-- With legal operands both table reads are inside their tables, and the code is the two entries. -/
theorem periodicCode_of_lt (rom : CommandRom) {rate : BitVec 3} {rep : BitVec 2} (hr : rate.toNat < 5) (hp : rep.toNat < 3) :
    periodicCode rom rate rep =
      some (rawWord rom.pmsb[rate.toNat] (rom.plsb[rate.toNat * 3 + rep.toNat]'(by omega))) := by
  have hi : rate.toNat * 3 + rep.toNat < 15 := by omega
  simp [periodicCode, rawWord, readPmsb_of_lt rom hr, readPlsb_of_lt rom hi]

/-- SetPeriodicMode with legal operands is assembled from the periodic tables. -/
theorem wireCode_setPeriodic (rom : CommandRom) {rate : BitVec 3} {rep : BitVec 2} (h : legalOperands rate rep = true) :
    wireCode rom 1 rate rep = periodicCode rom rate rep := by
  simp [wireCode, illegalCommand, h]

/-- Settles O10: six operations have their entry of the fixed table, and SetPeriodicMode has the two bytes that it reads from
the periodic tables. -/
theorem wireCodesOfTheSevenOperations : Obligations.WireCodesOfTheSevenOperations := by
  intro rom rate rep
  have fixed {op : BitVec 3} {code : Word} (h : codeEntry op = some code) : wireCode rom op rate rep = some code :=
    wireCode_of_codeEntry h rom rate rep
  refine ⟨fixed rfl, fixed rfl, fixed rfl, fixed rfl, fixed rfl, fixed rfl, rfl, fun hr hp => ?_⟩
  have hcode := (wireCode_setPeriodic rom ((legalOperands_iff rate rep).mpr ⟨hr, hp⟩)).trans (periodicCode_of_lt rom hr hp)
  exact ⟨_, hcode, rawWord_high _ _, rawWord_low _ _⟩

end Sys2Proof.Machine
end

section
/-! PROOFS. The reference vector of the checksum (41_checksum.md R90): the checksum of a byte is the last of its eight round
values, and the checksum of a word chains the bytes. -/

namespace Sys2Proof.Machine

theorem crcRounds_one (r : Byte) : crcRounds 1 r = crcRound r := rfl

/-- The register values after each of `n + 1` rounds start with one round, and go on as `n` rounds from there. -/
theorem roundValues_succ (n : Nat) (r : Byte) :
    (List.range (n + 1)).map (fun k => crcRounds (k + 1) r) =
      crcRound r :: (List.range n).map (fun k => crcRounds (k + 1) (crcRound r)) := by
  simp [List.range_succ_eq_map, crcRounds]

/-- A byte whose eight round values are `vs` leaves the eighth of them in the register. -/
theorem crcByte_of_roundValues {reg b r v : Byte} {vs : List Byte} (hr : reg ^^^ b = r)
    (hvs : (List.range 8).map (fun k => crcRounds (k + 1) r) = vs) (hv : vs[7]? = some v) : crcByte reg b = v := by
  subst hr hvs
  simpa [crcByte] using hv

/-- Settles O57: each round is computed from the one before it, and the checksum is read off the last round of each byte. -/
theorem checksumReferenceVector : Obligations.ChecksumReferenceVector := by
  have msbRounds : (List.range 8).map (fun k => crcRounds (k + 1) 0x41#8) =
      [0x82#8, 0x35#8, 0x6A#8, 0xD4#8, 0x99#8, 0x03#8, 0x06#8, 0x0C#8] := by
    simp [roundValues_succ, crcRounds_one, crcRound, Config.crcPoly]
  have lsbRounds : (List.range 8).map (fun k => crcRounds (k + 1) 0xE3#8) =
      [0xF7#8, 0xDF#8, 0x8F#8, 0x2F#8, 0x5E#8, 0xBC#8, 0x49#8, 0x92#8] := by
    simp [roundValues_succ, crcRounds_one, crcRound, Config.crcPoly]
  have msb : crcByte Config.crcInit 0xBE#8 = 0x0C#8 := crcByte_of_roundValues rfl msbRounds rfl
  have lsb : crcByte 0x0C#8 0xEF#8 = 0x92#8 := crcByte_of_roundValues rfl lsbRounds rfl
  have word : crc8 0xBEEF#16 = 0x92#8 :=
    calc crc8 0xBEEF#16
      _ = crcByte (crcByte Config.crcInit 0xBE#8) 0xEF#8 := rfl
      _ = crcByte 0x0C#8 0xEF#8 := by rw [msb]
      _ = 0x92#8 := lsb
  exact ⟨word, rfl, msbRounds, rfl, lsbRounds⟩

end Sys2Proof.Machine
end

section
/-! PROOFS. The bus calls of the micro-steps, for every operation (42_sequencer.md R96 to R105), and what is left to do after a
failed acknowledge or checksum (R112). -/

namespace Sys2Proof.Machine

open Sys2Proof.Statements

/-! ### The closing stop of a failed operation -/

/-- A busy step that answers a state is the micro-step of the running operation. -/
theorem latched_of_busy_step {s s' : State} (hr : s.input.rst = false) (hb : s.busy = true) (hs : step s = .next s') :
    ∃ i, s.latched = some i ∧ s' = microStep (operationOf i) s := by
  cases hl : s.latched with
  | none => simp [step, hr, hb, hl] at hs
  | some i =>
    rw [step_of_busy hr hb hl] at hs
    cases hs
    exact ⟨i, rfl, rfl⟩

/-- R107: the closing stop of a failed operation waits, or is made and ends in `FAILED`. -/
theorem stepFinalStop_of_fail {o : Operation} {s : State} (hf : s.fail = true) :
    stepFinalStop o s = s.consume ∨ stepFinalStop o s = { s.consume.record .stop with upc := .failed } := by
  cases ha : s.input.busRsp with
  | false => exact .inl (busStop_waits ha)
  | true => exact .inr (by simp [stepFinalStop, busStop_answered ha, hf])

/-- The same for a step of the block. -/
theorem step_of_failed_finalStop {s s' : State} (hu : s.upc = .finalStop) (hf : s.fail = true) (hr : s.input.rst = false)
    (hs : step s = .next s') : s' = s.consume ∨ s' = { s.consume.record .stop with upc := .failed } := by
  obtain ⟨i, -, rfl⟩ := latched_of_busy_step hr (by simp [State.busy, Upc.busy, hu]) hs
  rw [microStep_finalStop hu]
  exact stepFinalStop_of_fail hf

/-- A block in `FINAL_STOP` with `fail` set owes the closing stop and nothing else, whatever its inputs are. -/
theorem onlyTheStopRemains_of_fail {s : State} (hu : s.upc = .finalStop) (hf : s.fail = true) : OnlyTheStopRemains s := by
  refine ⟨by simp [State.busRequest, hu], fun inputs s' hr hs => ?_⟩
  obtain rfl | rfl := step_of_failed_finalStop (s := { s with inputs := inputs }) hu hf hr hs
  · exact .inl rfl
  · exact .inr ⟨rfl, rfl, rfl, rfl⟩

/-! ### The calls that return an acknowledge -/

/-- The micro-state of `s` makes a call that returns an acknowledge (R97, R98, R99, R102): the trace entry of that call, and
where the operation `o` goes on when the acknowledge is given. -/
inductive AckCall (o : Operation) (s : State) : (Bool → BusCall) → Upc → Prop
  | wAddr (h : s.upc = .wAddr) : AckCall o s (.addressWrite 0x44#7) .wMsb
  | wMsb (h : s.upc = .wMsb) : AckCall o s (.data s.codeR.high) .wLsb
  | wLsb (h : s.upc = .wLsb) : AckCall o s (.data s.codeR.low) (afterWritePhase o)
  | rAddr (h : s.upc = .rAddr) : AckCall o s (.addressRead 0x44#7) .rB0

/-- The micro-states of a failed acknowledge are those of an `AckCall`. -/
theorem exists_ackCall (o : Operation) {s : State} (h : s.upc ∈ [.wAddr, .wMsb, .wLsb, .rAddr]) :
    ∃ entry after, AckCall o s entry after := by
  simp only [List.mem_cons, List.not_mem_nil, or_false] at h
  obtain hu | hu | hu | hu := h
  · exact ⟨_, _, .wAddr hu⟩
  · exact ⟨_, _, .wMsb hu⟩
  · exact ⟨_, _, .wLsb hu⟩
  · exact ⟨_, _, .rAddr hu⟩

section
variable {o : Operation} {s : State} {entry : Bool → BusCall} {after : Upc}

/-- What the micro-step of such a call does: it waits, or records the call and goes on or fails. -/
theorem AckCall.microStep_eq (h : AckCall o s entry after) :
    microStep o s =
      if s.input.busRsp then
        if s.input.busAckIn then { s.consume.record (entry s.input.busAckIn) with upc := after }
        else raise (.busNack s.upc) (s.consume.record (entry s.input.busAckIn))
      else s.consume := by
  cases h with
  | wAddr hu => exact microStep_wAddr hu
  | wMsb hu => exact microStep_wMsb hu
  | wLsb hu => exact microStep_wLsb hu
  | rAddr hu => exact microStep_rAddr hu

theorem AckCall.microStep_waits (h : AckCall o s entry after) (hr : s.input.busRsp = false) : microStep o s = s.consume := by
  simp [h.microStep_eq, hr]

theorem AckCall.microStep_acked (h : AckCall o s entry after) (hr : s.input.busRsp = true) (ha : s.input.busAckIn = true) :
    microStep o s = { s with upc := after, trace := s.trace ++ [entry true], inputs := s.inputs.tail } := by
  simp [h.microStep_eq, hr, ha, State.record, State.consume]

theorem AckCall.microStep_nacked (h : AckCall o s entry after) (hr : s.input.busRsp = true) (ha : s.input.busAckIn = false) :
    microStep o s =
      { s with fail := true, upc := .finalStop, trace := s.trace ++ [entry false], inputs := s.inputs.tail } := by
  simp [h.microStep_eq, hr, ha, raise, State.record, State.consume]

end

/-- An acknowledge takes the operation on, with the call in the trace. -/
theorem AckCall.exec_acked {i : Instr} {s : State} {entry : Bool → BusCall} {after : Upc}
    (h : AckCall (operationOf i) s entry after) (hr : s.input.busRsp = true) (ha : s.input.busAckIn = true) :
    exec i s = .next { s with upc := after, trace := s.trace ++ [entry true], inputs := s.inputs.tail } := by
  rw [exec_eq_microStep, h.microStep_acked hr ha]

/-- Without one, the operation has failed and only the closing stop remains. -/
theorem AckCall.exec_nacked {i : Instr} {s : State} {entry : Bool → BusCall} {after : Upc}
    (h : AckCall (operationOf i) s entry after) (hr : s.input.busRsp = true) (ha : s.input.busAckIn = false) :
    ∃ s', exec i s = .next s' ∧ OnlyTheStopRemains s' ∧
      s' = { s with fail := true, upc := .finalStop, trace := s.trace ++ [entry false], inputs := s.inputs.tail } := by
  refine ⟨_, ?_, onlyTheStopRemains_of_fail rfl rfl, rfl⟩
  rw [exec_eq_microStep, h.microStep_nacked hr ha]

/-- Settles O22: the call of `W_ADDR` carries the device address with write intent. -/
theorem deviceIsAddressedForWriting : Obligations.DeviceIsAddressedForWriting := by
  intro i s hu hr
  have call : AckCall (operationOf i) s (.addressWrite 0x44#7) .wMsb := .wAddr hu
  exact ⟨fun ha => ⟨_, call.exec_acked hr ha, rfl, rfl⟩, call.exec_nacked hr⟩

/-- Settles O23: the call of `W_MSB` carries the high byte of `code_r`. -/
theorem highByteIsSentFirst : Obligations.HighByteIsSentFirst := by
  intro i s hu hr
  have call : AckCall (operationOf i) s (.data s.codeR.high) .wLsb := .wMsb hu
  exact ⟨call.exec_acked hr, call.exec_nacked hr⟩

/-- `fail` is clear in every busy micro-state before the closing stop. -/
theorem ControlInv.not_fail {s : State} (h : ControlInv s) (hs : s.upc ≠ .finalStop) (hf : s.upc ≠ .failed) :
    s.fail = false := by
  cases hx : s.fail with
  | false => rfl
  | true => exact absurd (h.failed hx) (by simp [hs, hf])

/-- R25: wherever a write phase goes on, the document's state is the one after the command bytes. In `FINAL_STOP` that takes
an operation that reads nothing and has not failed. -/
theorem docState_afterWritePhase {o : Operation} {s : State} (hu : s.upc = afterWritePhase o) (hw : s.words = o.words)
    (hf : s.fail = false) : s.docState = .commandBytesSent := by
  unfold afterWritePhase at hu
  split at hu
  next h0 => simp [State.docState, hu, hf, hw, h0]
  next => split at hu <;> simp [State.docState, hu]

/-- Settles O24: the call of `W_LSB` carries the low byte of `code_r`, and the parameters of each operation say where it
goes on. -/
theorem lowByteEndsTheWritePhase : Obligations.LowByteEndsTheWritePhase := by
  intro i s hu hr
  have call : AckCall (operationOf i) s (.data s.codeR.low) (afterWritePhase (operationOf i)) := .wLsb hu
  refine ⟨fun ha => ⟨_, call.exec_acked hr ha, fun hinv hl => ?_, ?_⟩, call.exec_nacked hr⟩
  · have hf : s.fail = false := hinv.not_fail (by simp [hu]) (by simp [hu])
    have hw : s.words = (operationOf i).words := State.words_of_latched hl
    exact docState_afterWritePhase rfl hw hf
  · cases i <;> rfl

/-- Settles O27: the call of `R_ADDR` carries the device address with read intent; the word index is still 0 there, so the
document's state is the one before the first word. -/
theorem deviceIsAddressedForReading : Obligations.DeviceIsAddressedForReading := by
  intro i s hu hr
  have call : AckCall (operationOf i) s (.addressRead 0x44#7) .rB0 := .rAddr hu
  refine ⟨fun ha => ⟨_, call.exec_acked hr ha, fun hinv => ?_, rfl⟩, call.exec_nacked hr⟩
  have hw : s.widx = 0#1 :=
    hinv.firstWord (by simp [State.busy, Upc.busy, hu]) (by simp [Upc.inWord, hu]) (by simp [hu])
  exact if_pos hw

/-! ### The starts and the reads, which cannot fail -/

/-- Settles O21: an answered start, whichever operation runs. -/
theorem writePhaseOpensWithAStart : Obligations.WritePhaseOpensWithAStart := by
  intro i s hu hr
  rw [exec_eq_microStep, microStep_wStart hu, stepWStart, busStart_answered hr]
  rfl

/-- `MIDSTOP(op_r)` of a running operation is that of its parameters. -/
theorem State.midStopBetween_of_latched {s : State} {i : Instr} (h : s.latched = some i) :
    s.midStopBetween = (operationOf i).midStop := by
  simp [State.midStopBetween, h]

/-- At `R_START` the bracket of the write phase is open unless the operation has made the intermediate stop. -/
theorem bracketOpen_rStart {s : State} {i : Instr} (hu : s.upc = .rStart) (hl : s.latched = some i) :
    s.bracketOpen = !(operationOf i).midStop := by
  simp [State.bracketOpen, hu, State.midStopBetween_of_latched hl]

/-- Settles O26: of the three operations that read, only SINGLE_SHOT has made a stop before `R_START`. -/
theorem readPhaseOpensWithAStart : Obligations.ReadPhaseOpensWithAStart := by
  refine ⟨fun i s hu hr => ?_, fun s u hu => ⟨bracketOpen_rStart hu, bracketOpen_rStart hu, bracketOpen_rStart hu⟩⟩
  rw [exec_eq_microStep, microStep_rStart hu, stepRStart, busStart_answered hr]
  rfl

/-- Settles O28: two answered reads, and the byte order is that of the word's two halves. -/
theorem dataBytesAreReadAndLatched : Obligations.DataBytesAreReadAndLatched := by
  refine ⟨fun i s hu hr => ?_, fun i s hu hr => ?_, fun b0 b1 => ⟨rawWord_high b0 b1, rawWord_low b0 b1⟩⟩
  · rw [exec_eq_microStep, microStep_rB0 hu, stepRB0, busReadData_answered hr]
    rfl
  · rw [exec_eq_microStep, microStep_rB1 hu, stepRB1, busReadData_answered hr]
    rfl

theorem State.moreFollow_iff (s : State) (words : Nat) : s.moreFollow words = true ↔ s.widx.toNat + 1 < words := by
  simp [State.moreFollow]

/-- FETCH and SINGLE_SHOT are the operations that read more than one word (R94). -/
theorem one_lt_words_iff (i : Instr) :
    1 < (operationOf i).words ↔ (∃ u, i = .fetch u) ∨ ∃ u, i = .singleShot u := by
  cases i <;> simp [operationOf, softResetOperation, setPeriodicOperation, fetchOperation, singleShotOperation,
    readStatusOperation, clearStatusOperation, breakOperation]

/-- R105: since no operation reads more than two words, a word is followed by another exactly if it is the first of two. -/
theorem State.moreFollow_operationOf_iff (s : State) (i : Instr) :
    s.moreFollow (operationOf i).words = true ↔ s.widx = 0 ∧ ((∃ u, i = .fetch u) ∨ ∃ u, i = .singleShot u) := by
  rw [s.moreFollow_iff, ← one_lt_words_iff]
  obtain hw | hw := widx_cases s.widx
  · simp [hw]
  · have h2 := operationOf_words_le i
    simp [hw, h2]

/-- Settles O29: the acknowledge is the comparison of the word index with `K`. -/
theorem checksumByteIsReadAndLatched : Obligations.ChecksumByteIsReadAndLatched := by
  intro i s hu hr
  refine ⟨_, _, s.moreFollow_iff _, s.moreFollow_operationOf_iff i, ?_, ?_, rfl⟩
  · rw [exec_eq_microStep, microStep_rCrc hu, stepRCrc, busReadData_answered hr]
    rfl
  · rfl

/-! ### The steps that fail -/

/-- R106: a wrong checksum, in full. -/
theorem stepCheck_of_mismatch (o : Operation) {s : State} (h : crc8 (rawWord s.b0 s.b1) ≠ s.c) :
    stepCheck o s =
      { s with crc := crc8 (rawWord s.b0 s.b1), fail := true, upc := .finalStop, inputs := s.inputs.tail } := by
  simp [stepCheck, h, raise, runChecksum, State.consume]

/-- R106: the word of a matching checksum goes on to be staged. -/
theorem stepCheck_of_match (o : Operation) {s : State} (h : crc8 (rawWord s.b0 s.b1) = s.c) :
    stepCheck o s = wordValid o (runChecksum s.consume) := by
  simp [stepCheck, h]

theorem wordValid_fail (o : Operation) (s : State) : (wordValid o s).fail = s.fail := by
  unfold wordValid
  split <;> simp

@[simp] theorem commitWords_fail (commit : Commit) (s : State) : (commitWords commit s).fail = s.fail := by
  cases commit <;> rfl

/-- A call leaves `fail` alone if what it goes on with does. -/
theorem call_fail {s : State} {call : BusCall} {next : State → State} (hn : ∀ u, (next u).fail = u.fail) :
    (if s.input.busRsp then next (s.consume.record call) else s.consume).fail = s.fail := by
  split <;> simp [hn]

theorem busStart_fail {s : State} {next : State → State} (hn : ∀ u, (next u).fail = u.fail) :
    (busStart s next).fail = s.fail := call_fail hn

theorem busStop_fail {s : State} {next : State → State} (hn : ∀ u, (next u).fail = u.fail) :
    (busStop s next).fail = s.fail := call_fail hn

theorem busReadData_fail {ack : Bool} {s : State} {next : Byte → State → State} (hn : ∀ byte u, (next byte u).fail = u.fail) :
    (busReadData ack s next).fail = s.fail := call_fail (hn s.input.busRdata)

@[simp] theorem acceptCommand_fail (op : BitVec 3) (rate : BitVec 3) (rep : BitVec 2) (s : State) :
    (acceptCommand op rate rep s).fail = false := by
  cases h : wireCode s.rom op rate rep with
  | none => simp [acceptCommand_illegal h]
  | some code => simp [acceptCommand_legal h]

/-- Only a busy block fails. -/
theorem busy_of_stepFails {s : State} (h : StepFails s) : s.busy = true := by
  obtain ⟨hu, -, -⟩ | ⟨hu, -⟩ := h
  · cases hx : s.upc <;> simp_all [State.busy, Upc.busy]
  · simp [State.busy, Upc.busy, hu]

/-- R124 to R126: a failing micro-step sets `fail` and goes to the closing stop, whichever operation runs. -/
theorem microStep_of_stepFails (o : Operation) {s : State} (h : StepFails s) :
    (microStep o s).fail = true ∧ (microStep o s).upc = .finalStop := by
  obtain ⟨hu, hr, ha⟩ | ⟨hu, hc⟩ := h
  · obtain ⟨entry, after, call⟩ := exists_ackCall o hu
    simp [call.microStep_nacked hr ha]
  · simp [microStep_check hu, stepCheck_of_mismatch o hc]

/-- A call that returns an acknowledge leaves `fail` alone if it is not the failing one. -/
theorem AckCall.microStep_fail {o : Operation} {s : State} {entry : Bool → BusCall} {after : Upc}
    (h : AckCall o s entry after) (hn : s.input.busRsp = true → s.input.busAckIn = true) :
    (microStep o s).fail = s.fail := by
  cases hr : s.input.busRsp with
  | false => simp [h.microStep_waits hr]
  | true => simp [h.microStep_acked hr (hn hr)]

/-- No other micro-step of a running operation writes `fail`. -/
theorem microStep_fail_of_not_stepFails (o : Operation) {s : State} (hb : s.busy = true) (hn : ¬ StepFails s) :
    (microStep o s).fail = s.fail := by
  have acked (hu : s.upc ∈ [.wAddr, .wMsb, .wLsb, .rAddr]) (hr : s.input.busRsp = true) : s.input.busAckIn = true := by
    by_contra ha
    exact hn (.inl ⟨hu, hr, by simpa using ha⟩)
  cases hu : s.upc with
  | idle | done | failed => simp [State.busy, Upc.busy, hu] at hb
  | wAddr | wMsb | wLsb | rAddr =>
    have hmem : s.upc ∈ [.wAddr, .wMsb, .wLsb, .rAddr] := by simp [hu]
    obtain ⟨entry, after, call⟩ := exists_ackCall o hmem
    exact call.microStep_fail (acked hmem)
  | wStart => rw [microStep_wStart hu]; exact busStart_fail fun _ => rfl
  | midStop => rw [microStep_midStop hu]; exact busStop_fail fun _ => rfl
  | rStart => rw [microStep_rStart hu]; exact busStart_fail fun _ => rfl
  | rB0 => rw [microStep_rB0 hu]; exact busReadData_fail fun _ _ => rfl
  | rB1 => rw [microStep_rB1 hu]; exact busReadData_fail fun _ _ => rfl
  | rCrc => rw [microStep_rCrc hu]; exact busReadData_fail fun _ _ => rfl
  | check =>
    have hc : crc8 (rawWord s.b0 s.b1) = s.c := by
      by_contra hc
      exact hn (.inr ⟨hu, hc⟩)
    rw [microStep_check hu, stepCheck_of_match o hc, wordValid_fail]
    rfl
  | finalStop =>
    rw [microStep_finalStop hu]
    refine busStop_fail fun u => ?_
    split <;> simp

/-- Without a reset, only a failing step sets `fail`: accepting clears it, and waiting keeps it. -/
theorem stepFails_of_step_fail {s s' : State} (hr : s.input.rst = false) (hs : step s = .next s') (hf : s.fail = false)
    (hf' : s'.fail = true) : StepFails s := by
  by_contra hn
  suffices h : s'.fail = false by simp [h] at hf'
  obtain ⟨hr', -⟩ | ⟨-, hb, i, -, h⟩ | ⟨-, -, -, h⟩ | ⟨-, hb, -, i, -, -, h⟩ | ⟨-, -, -, -, -, h⟩ | ⟨-, -, -, h⟩ := step_cases s
  · simp [hr] at hr'
  all_goals rw [h] at hs; cases hs
  · rw [microStep_fail_of_not_stepFails _ hb hn, hf]
  · simp [microStep_of_not_busy hb]
  · simp [acceptReserved]
  · simp [waitForCommand, hf]

/-- Settles O45: a failing step ends in `FINAL_STOP` with `fail` set, from where only the stop is made. -/
theorem failureLeavesOnlyTheClosingStop : Obligations.FailureLeavesOnlyTheClosingStop := by
  intro s s' hr hs
  refine ⟨fun h => ?_, stepFails_of_step_fail hr hs⟩
  obtain ⟨i, -, rfl⟩ := latched_of_busy_step hr (busy_of_stepFails h) hs
  obtain ⟨hf, hu⟩ := microStep_of_stepFails (operationOf i) h
  exact ⟨hf, hu, onlyTheStopRemains_of_fail hu hf⟩

end Sys2Proof.Machine
end

section
/-! PROOFS. The host's command word taken apart and put together again (30_encoding.md R62 to R64), and which commands are
illegal (R71). -/

namespace Sys2Proof.Machine

/-! ### The fields of a command word -/

theorem cmdOp_append (op : BitVec 3) (bits : BitVec 5) : cmdOp (op ++ bits) = op := by
  revert op bits; decide

theorem cmdRate_append (op : BitVec 3) (bits : BitVec 5) : cmdRate (op ++ bits) = ignoredRate bits := by
  revert op bits; decide

theorem cmdRep_append (op : BitVec 3) (bits : BitVec 5) : cmdRep (op ++ bits) = ignoredRep bits := by
  revert op bits; decide

/-- The three fields hold every bit of the word. -/
theorem cmdOp_append_operands (cmd : Byte) : cmdOp cmd ++ (cmdRate cmd ++ cmdRep cmd) = cmd := by
  revert cmd; decide

/-- The fields of an operation's command word are what accept latches for it. -/
theorem cmd_fields (i : Instr) :
    cmdOp i.cmd = (operationOf i).op ∧ cmdRate i.cmd = (operationOf i).rate ∧ cmdRep i.cmd = (operationOf i).rep := by
  refine ⟨(cmdOp_append _ _).trans ?_, (cmdRate_append _ _).trans ?_, (cmdRep_append _ _).trans ?_⟩
  · cases i <;> rfl
  · cases i with
    | setPeriodic rate rep => exact ignoredRate_append rate rep
    | softReset | fetch | singleShot | readStatus | clearStatus | breakOp => rfl
  · cases i with
    | setPeriodic rate rep => exact ignoredRep_append rate rep
    | softReset | fetch | singleShot | readStatus | clearStatus | breakOp => rfl

/-- The command register of an accepted operation holds that operation, its ignored bits included. -/
theorem ofFields_operationOf (i : Instr) :
    Instr.ofFields (operationOf i).op (operationOf i).rate (operationOf i).rep = some i := by
  cases i <;> simp [Instr.ofFields, operationOf, softResetOperation, setPeriodicOperation, fetchOperation, singleShotOperation,
    readStatusOperation, clearStatusOperation, breakOperation, ignored_append]

/-! ### The decoder -/

theorem ofFields_cmd (i : Instr) : Instr.ofFields (cmdOp i.cmd) (cmdRate i.cmd) (cmdRep i.cmd) = some i := by
  obtain ⟨hop, hrate, hrep⟩ := cmd_fields i
  rw [hop, hrate, hrep, ofFields_operationOf]

/-- Two words with the same fields are the same word, so an operation has only one. -/
theorem cmd_eq_of_ofFields {cmd : Byte} {i : Instr} (h : Instr.ofFields (cmdOp cmd) (cmdRate cmd) (cmdRep cmd) = some i) :
    i.cmd = cmd := by
  obtain ⟨hop, hrate, hrep⟩ := cmd_fields i
  obtain ⟨hop', hrate', hrep'⟩ := operationOf_latched h
  rw [← cmdOp_append_operands i.cmd, hop, hrate, hrep, hop', hrate', hrep', cmdOp_append_operands]

theorem decode_cons_eq_ok_iff (cmd : Byte) (rest rest' : List Byte) (i : Instr) :
    decode (cmd :: rest) = .ok (i, rest') ↔
      Instr.ofFields (cmdOp cmd) (cmdRate cmd) (cmdRep cmd) = some i ∧ rest = rest' := by
  cases h : Instr.ofFields (cmdOp cmd) (cmdRate cmd) (cmdRep cmd) <;> simp [decode, h]

theorem decode_cons_eq_error_iff (cmd : Byte) (rest : List Byte) (e : DecodeError) :
    decode (cmd :: rest) = .error e ↔ cmdOp cmd = 7#3 ∧ e = .reservedOp := by
  rw [← ofFields_eq_none_iff _ (cmdRate cmd) (cmdRep cmd)]
  cases h : Instr.ofFields (cmdOp cmd) (cmdRate cmd) (cmdRep cmd) <;> simp [decode, h, eq_comm]

/-- Settles O4: the fields of an operation's command word are its number and its operand bits. -/
theorem decodeOfEncodeIsTheInstruction : Obligations.DecodeOfEncodeIsTheInstruction := by
  intro i rest
  exact (decode_cons_eq_ok_iff i.cmd rest rest i).mpr ⟨ofFields_cmd i, rfl⟩

/-- Settles O5: the fields of a command word hold all of it. -/
theorem decodedBytesAreTheEncoding : Obligations.DecodedBytesAreTheEncoding := by
  intro bytes i rest h
  cases bytes with
  | nil => cases h
  | cons cmd tail =>
    obtain ⟨hi, rfl⟩ := (decode_cons_eq_ok_iff cmd tail rest i).mp h
    rw [← cmd_eq_of_ofFields hi]
    rfl

/-- Settles O6. -/
theorem decoderRefusesExactlyTheReservedNumber : Obligations.DecoderRefusesExactlyTheReservedNumber := by
  refine ⟨rfl, fun cmd rest => ⟨?_, ?_⟩⟩
  · exact (decode_cons_eq_error_iff cmd rest .reservedOp).trans (and_iff_left rfl)
  · simp [decode_cons_eq_error_iff]

/-- Settles O7: each word by its fields. -/
theorem sampleWordsDecode : Obligations.SampleWordsDecode := by
  unfold Obligations.SampleWordsDecode
  decide

/-- Settles O13. -/
theorem parametersOfTheSevenOperations : Obligations.ParametersOfTheSevenOperations :=
  fun _ _ _ => ⟨rfl, rfl, rfl, rfl, rfl, rfl, rfl⟩

/-! ### Legal commands and their wire codes -/

theorem illegalCommand_iff (op : BitVec 3) (rate : BitVec 3) (rep : BitVec 2) :
    illegalCommand op rate rep = true ↔ op = 7#3 ∨ (op = 1#3 ∧ (4 < rate.toNat ∨ rep.toNat = 3)) := by
  simp [illegalCommand, legalOperands]

/-- Every legal command finds its code in the catalog, and an illegal one has none. -/
theorem wireCode_eq_none_iff (rom : CommandRom) (op : BitVec 3) (rate : BitVec 3) (rep : BitVec 2) :
    wireCode rom op rate rep = none ↔ illegalCommand op rate rep = true := by
  cases hi : illegalCommand op rate rep with
  | true => simp [wireCode, hi]
  | false =>
    have h7 : op ≠ 7#3 := by rintro rfl; simp [illegalCommand] at hi
    by_cases h1 : op = 1#3
    · subst h1
      have hl : legalOperands rate rep = true := by simpa [illegalCommand] using hi
      obtain ⟨hr, hp⟩ := (legalOperands_iff rate rep).mp hl
      have hcode := (wireCode_setPeriodic rom hl).trans (periodicCode_of_lt rom hr hp)
      simp only [BitVec.ofNat_eq_ofNat] at hcode
      simp [hcode]
    · obtain ⟨code, hcode⟩ := Option.isSome_iff_exists.mp ((codeEntry_isSome_iff op).mpr ⟨h1, h7⟩)
      simp [wireCode_of_codeEntry hcode]

/-- A command that has a wire code is legal. -/
theorem legal_of_wireCode {rom : CommandRom} {op : BitVec 3} {rate : BitVec 3} {rep : BitVec 2} {code : Word}
    (h : wireCode rom op rate rep = some code) : illegalCommand op rate rep = false := by
  rw [← Bool.not_eq_true, ← wireCode_eq_none_iff rom, h]
  simp

/-- R71: an operation is legal exactly if it is well-formed. -/
theorem illegalCommand_operationOf (i : Instr) :
    illegalCommand (operationOf i).op (operationOf i).rate (operationOf i).rep = !i.WellFormed := by
  cases i <;> rfl

/-- A well-formed operation has a wire code. -/
theorem wireCode_of_wellFormed (rom : CommandRom) {i : Instr} (h : i.WellFormed = true) :
    ∃ code, wireCode rom (operationOf i).op (operationOf i).rate (operationOf i).rep = some code := by
  rw [← Option.ne_none_iff_exists', ne_eq, wireCode_eq_none_iff, illegalCommand_operationOf, h]
  simp

/-- Settles O8: the catalog has a code for every legal command. -/
theorem illegalCommandsHaveNoWireCode : Obligations.IllegalCommandsHaveNoWireCode :=
  fun rom op rate rep => (wireCode_eq_none_iff rom op rate rep).trans (illegalCommand_iff op rate rep)

theorem exists_rateCode_iff (rate : BitVec 3) : (∃ r : AcquisitionRate, r.code = rate) ↔ rate.toNat < 5 := by
  constructor
  · rintro ⟨r, rfl⟩
    cases r <;> decide
  · have listed : rate.toNat < 5 → rate = 0 ∨ rate = 1 ∨ rate = 2 ∨ rate = 3 ∨ rate = 4 := by revert rate; decide
    intro h
    obtain rfl | rfl | rfl | rfl | rfl := listed h
    exacts [⟨.mps0_5, rfl⟩, ⟨.mps1, rfl⟩, ⟨.mps2, rfl⟩, ⟨.mps4, rfl⟩, ⟨.mps10, rfl⟩]

theorem exists_repeatabilityCode_iff (rep : BitVec 2) : (∃ p : Repeatability, p.code = rep) ↔ rep.toNat < 3 := by
  constructor
  · rintro ⟨p, rfl⟩
    cases p <;> decide
  · have listed : rep.toNat < 3 → rep = 0 ∨ rep = 1 ∨ rep = 2 := by revert rep; decide
    intro h
    obtain rfl | rfl | rfl := listed h
    exacts [⟨.low, rfl⟩, ⟨.medium, rfl⟩, ⟨.high, rfl⟩]

/-- Settles O9: both say that the rate is below 5 and the repeatability below 3. -/
theorem legalOperandsAreTheEnumerations : Obligations.LegalOperandsAreTheEnumerations := by
  intro rate rep
  rw [exists_rateCode_iff, exists_repeatabilityCode_iff]
  exact legalOperands_iff rate rep

/-- Settles O11: the default tables, read at the fifteen legal operand pairs. -/
theorem defaultPeriodicCodes : Obligations.DefaultPeriodicCodes := by
  unfold Obligations.DefaultPeriodicCodes
  decide

end Sys2Proof.Machine
end

section
/-! PROOFS. What one step of the block can do, case by case, with the whole next state (42_sequencer.md R93 to R109): a micro-step
of the running operation, the accept or the refusal of an offered command, waiting for one, a reset. -/

namespace Sys2Proof.Machine

open Sys2Proof.Statements

/-! ### Accept, with the whole next state -/

/-- R95, R127: an illegal command is refused, with `code_r` as it was. -/
theorem acceptCommand_eq_refused {op : BitVec 3} {rate : BitVec 3} {rep : BitVec 2} {s : State}
    (h : wireCode s.rom op rate rep = none) :
    acceptCommand op rate rep s = { s with
      opR := op, rateR := rate, repR := rep, fail := false, widx := 0, upc := .failed, inputs := s.inputs.tail } :=
  acceptCommand_illegal h

/-- R95: a legal command is latched with its wire code. -/
theorem acceptCommand_eq_accepted {op : BitVec 3} {rate : BitVec 3} {rep : BitVec 2} {s : State} {code : Word}
    (h : wireCode s.rom op rate rep = some code) :
    acceptCommand op rate rep s = { s with
      opR := op, rateR := rate, repR := rep, codeR := code, fail := false, widx := 0, upc := .wStart,
      inputs := s.inputs.tail } :=
  acceptCommand_legal h

/-- A block that is not busy takes an operation as its command word says. -/
theorem exec_of_not_busy {s : State} (i : Instr) (hb : s.busy = false) :
    exec i s = .next (acceptCommand i.op (cmdRate i.cmd) (cmdRep i.cmd) s) := by
  obtain ⟨-, hrate, hrep⟩ := cmd_fields i
  have hop : i.op = (operationOf i).op := by cases i <;> rfl
  rw [exec_eq_microStep, microStep_of_not_busy hb, hop, hrate, hrep]

/-- Settles O19: a legal operation has a wire code, and accept latches it. -/
theorem legalOperationIsAccepted : Obligations.LegalOperationIsAccepted := by
  intro i s hw hb
  obtain ⟨code, hcode⟩ := wireCode_of_wellFormed s.rom hw
  obtain ⟨-, hrate, hrep⟩ := cmd_fields i
  have hop : i.op = (operationOf i).op := by cases i <;> rfl
  rw [← hop, ← hrate, ← hrep] at hcode
  exact ⟨code, hcode, by rw [exec_of_not_busy i hb, acceptCommand_eq_accepted hcode]⟩

/-- Settles O20: operands out of range leave SET_PERIODIC without a wire code. -/
theorem illegalSetPeriodicIsRefused : Obligations.IllegalSetPeriodicIsRefused := by
  intro rate rep s h hb
  have hcode : wireCode s.rom 1 rate rep = none := (illegalCommandsHaveNoWireCode _ _ _ _).mpr (.inr ⟨rfl, h⟩)
  refine ⟨_, ?_, rfl, rfl, rfl⟩
  rw [exec_eq_microStep, microStep_of_not_busy hb]
  exact congrArg _ (acceptCommand_eq_refused hcode)

/-! ### The micro-steps of a running operation -/

/-- The call that returns an acknowledge is the one on the bus port. -/
theorem AckCall.exists_request {o : Operation} {s : State} {entry : Bool → BusCall} {after : Upc}
    (h : AckCall o s entry after) : ∃ q, s.busRequest = some q ∧ ∀ j : Input, q.completed j = entry j.busAckIn := by
  cases h with
  | wAddr hu => exact ⟨.sendAddressWrite 0x44#7, by simp [State.busRequest, hu, Config.deviceAddr], fun _ => rfl⟩
  | wMsb hu => exact ⟨.sendData s.codeR.high, by simp [State.busRequest, hu], fun _ => rfl⟩
  | wLsb hu => exact ⟨.sendData s.codeR.low, by simp [State.busRequest, hu], fun _ => rfl⟩
  | rAddr hu => exact ⟨.sendAddressRead 0x44#7, by simp [State.busRequest, hu, Config.deviceAddr], fun _ => rfl⟩

/-- What a micro-step of the running operation `i` answers: it waits for its call (R82), or it is the action of one
micro-state with the outcome that the environment and the checksum give it. -/
inductive Fires (i : Instr) (s : State) : State → Prop
  | waits (hq : s.busRequest ≠ none) (hr : s.input.busRsp = false) : Fires i s { s with inputs := s.inputs.tail }
  | wStart (hu : s.upc = .wStart) (hr : s.input.busRsp = true) :
      Fires i s { s with upc := .wAddr, trace := s.trace ++ [.start], inputs := s.inputs.tail }
  | acked {entry : Bool → BusCall} {after : Upc} (call : AckCall (operationOf i) s entry after)
      (hr : s.input.busRsp = true) (ha : s.input.busAckIn = true) :
      Fires i s { s with upc := after, trace := s.trace ++ [entry true], inputs := s.inputs.tail }
  | nacked {entry : Bool → BusCall} {after : Upc} (call : AckCall (operationOf i) s entry after)
      (hr : s.input.busRsp = true) (ha : s.input.busAckIn = false) :
      Fires i s { s with
        fail := true, upc := .finalStop, trace := s.trace ++ [entry false], inputs := s.inputs.tail }
  | midStop (hu : s.upc = .midStop) (hr : s.input.busRsp = true) :
      Fires i s { s with upc := .rStart, trace := s.trace ++ [.stop], inputs := s.inputs.tail }
  | rStart (hu : s.upc = .rStart) (hr : s.input.busRsp = true) :
      Fires i s { s with upc := .rAddr, trace := s.trace ++ [.start], inputs := s.inputs.tail }
  | rB0 (hu : s.upc = .rB0) (hr : s.input.busRsp = true) :
      Fires i s { s with
        b0 := s.input.busRdata, upc := .rB1, trace := s.trace ++ [.read true s.input.busRdata], inputs := s.inputs.tail }
  | rB1 (hu : s.upc = .rB1) (hr : s.input.busRsp = true) :
      Fires i s { s with
        b1 := s.input.busRdata, upc := .rCrc, trace := s.trace ++ [.read true s.input.busRdata], inputs := s.inputs.tail }
  | rCrc (hu : s.upc = .rCrc) (hr : s.input.busRsp = true) :
      Fires i s { s with
        c := s.input.busRdata, upc := .check,
        trace := s.trace ++ [.read (s.moreFollow (operationOf i).words) s.input.busRdata], inputs := s.inputs.tail }
  | mismatch (hu : s.upc = .check) (hc : crc8 (rawWord s.b0 s.b1) ≠ s.c) :
      Fires i s { s with
        crc := crc8 (rawWord s.b0 s.b1), fail := true, upc := .finalStop, inputs := s.inputs.tail }
  | firstWord (hu : s.upc = .check) (hc : crc8 (rawWord s.b0 s.b1) = s.c) (hx : s.widx = 0#1)
      (hk : 1 < (operationOf i).words) :
      Fires i s { s with
        crc := s.c, stage0 := rawWord s.b0 s.b1, widx := 1#1, upc := .rB0, inputs := s.inputs.tail }
  | onlyWord (hu : s.upc = .check) (hc : crc8 (rawWord s.b0 s.b1) = s.c) (hx : s.widx = 0#1)
      (hk : (operationOf i).words ≤ 1) :
      Fires i s { s with crc := s.c, stage0 := rawWord s.b0 s.b1, upc := .finalStop, inputs := s.inputs.tail }
  | secondWord (hu : s.upc = .check) (hc : crc8 (rawWord s.b0 s.b1) = s.c) (hx : s.widx = 1#1) :
      Fires i s { s with crc := s.c, stage1 := rawWord s.b0 s.b1, upc := .finalStop, inputs := s.inputs.tail }
  | endsFailed (hu : s.upc = .finalStop) (hf : s.fail = true) (hr : s.input.busRsp = true) :
      Fires i s { s with upc := .failed, trace := s.trace ++ [.stop], inputs := s.inputs.tail }
  | endsDone (hu : s.upc = .finalStop) (hf : s.fail = false) (hr : s.input.busRsp = true) :
      Fires i s { commitWords (operationOf i).commit s with
        upc := .done, trace := s.trace ++ [.stop], inputs := s.inputs.tail }

/-- An outstanding call that is not answered changes nothing but the inputs left. -/
theorem microStep_waits (o : Operation) {s : State} (hq : s.busRequest ≠ none) (hr : s.input.busRsp = false) :
    microStep o s = s.consume := by
  cases hu : s.upc with
  | idle | check | done | failed => simp [State.busRequest, hu] at hq
  | wAddr => exact (AckCall.wAddr (o := o) hu).microStep_waits hr
  | wMsb => exact (AckCall.wMsb (o := o) hu).microStep_waits hr
  | wLsb => exact (AckCall.wLsb (o := o) hu).microStep_waits hr
  | rAddr => exact (AckCall.rAddr (o := o) hu).microStep_waits hr
  | wStart => rw [microStep_wStart hu]; exact busStart_waits hr
  | rStart => rw [microStep_rStart hu]; exact busStart_waits hr
  | midStop => rw [microStep_midStop hu]; exact busStop_waits hr
  | finalStop => rw [microStep_finalStop hu]; exact busStop_waits hr
  | rB0 => rw [microStep_rB0 hu]; exact busReadData_waits hr
  | rB1 => rw [microStep_rB1 hu]; exact busReadData_waits hr
  | rCrc => rw [microStep_rCrc hu]; exact busReadData_waits hr

/-- R107: a closing stop with nothing failed commits and ends in `DONE`. -/
theorem stepFinalStop_of_success (o : Operation) {s : State} (hf : s.fail = false) (hr : s.input.busRsp = true) :
    stepFinalStop o s =
      { commitWords o.commit s with upc := .done, trace := s.trace ++ [.stop], inputs := s.inputs.tail } := by
  rw [stepFinalStop, busStop_answered hr, if_neg (by simp [hf])]
  cases o.commit <;> rfl

/-- R106: a valid word that another follows. -/
theorem wordValid_of_more (o : Operation) {s : State} (h : s.moreFollow o.words = true) :
    wordValid o s = { stageWord (rawWord s.b0 s.b1) s with widx := s.widx + 1, upc := .rB0 } := if_pos h

/-- R106: a valid word that is the last. -/
theorem wordValid_of_last (o : Operation) {s : State} (h : s.moreFollow o.words = false) :
    wordValid o s = { stageWord (rawWord s.b0 s.b1) s with upc := .finalStop } := if_neg (by simp [h])

/-- The cases are what the operation's meaning answers. -/
theorem Fires.exec_eq {i : Instr} {s s' : State} (h : Fires i s s') : exec i s = .next s' := by
  rw [exec_eq_microStep]
  congr 1
  cases h with
  | waits hq hr => exact microStep_waits _ hq hr
  | wStart hu hr => rw [microStep_wStart hu]; exact busStart_answered hr
  | acked call hr ha => exact call.microStep_acked hr ha
  | nacked call hr ha => exact call.microStep_nacked hr ha
  | midStop hu hr => rw [microStep_midStop hu]; exact busStop_answered hr
  | rStart hu hr => rw [microStep_rStart hu]; exact busStart_answered hr
  | rB0 hu hr => rw [microStep_rB0 hu]; exact busReadData_answered hr
  | rB1 hu hr => rw [microStep_rB1 hu]; exact busReadData_answered hr
  | rCrc hu hr => rw [microStep_rCrc hu]; exact busReadData_answered hr
  | mismatch hu hc => rw [microStep_check hu]; exact stepCheck_of_mismatch _ hc
  | firstWord hu hc hx hk =>
    have more : (runChecksum s.consume).moreFollow (operationOf i).words = true := by simp [State.moreFollow, hx, hk]
    rw [microStep_check hu, stepCheck_of_match _ hc, wordValid_of_more _ more, stageWord_first (s := runChecksum s.consume) hx]
    simp [runChecksum, State.consume, hc, hx]
  | onlyWord hu hc hx hk =>
    have last : (runChecksum s.consume).moreFollow (operationOf i).words = false := by simp [State.moreFollow, hx, hk]
    rw [microStep_check hu, stepCheck_of_match _ hc, wordValid_of_last _ last, stageWord_first (s := runChecksum s.consume) hx]
    simp [runChecksum, State.consume, hc]
  | secondWord hu hc hx =>
    have last : (runChecksum s.consume).moreFollow (operationOf i).words = false := by
      simpa [State.moreFollow, hx] using operationOf_words_le i
    rw [microStep_check hu, stepCheck_of_match _ hc, wordValid_of_last _ last, stageWord_second (s := runChecksum s.consume) hx]
    simp [runChecksum, State.consume, hc]
  | endsFailed hu hf hr => rw [microStep_finalStop hu, stepFinalStop, busStop_answered hr]; exact if_pos hf
  | endsDone hu hf hr => rw [microStep_finalStop hu]; exact stepFinalStop_of_success _ hf hr

/-- One of the cases applies to every busy state. -/
theorem exists_fires (i : Instr) {s : State} (hb : s.busy = true) : ∃ s', Fires i s s' := by
  have acks {entry : Bool → BusCall} {after : Upc} (call : AckCall (operationOf i) s entry after)
      (hr : s.input.busRsp = true) : ∃ s', Fires i s s' := by
    cases ha : s.input.busAckIn with
    | true => exact ⟨_, .acked call hr ha⟩
    | false => exact ⟨_, .nacked call hr ha⟩
  by_cases hu : s.upc = .check
  · by_cases hc : crc8 (rawWord s.b0 s.b1) = s.c
    · obtain hx | hx := widx_cases s.widx
      · obtain hk | hk := Nat.lt_or_ge 1 (operationOf i).words
        · exact ⟨_, .firstWord hu hc hx hk⟩
        · exact ⟨_, .onlyWord hu hc hx hk⟩
      · exact ⟨_, .secondWord hu hc hx⟩
    · exact ⟨_, .mismatch hu hc⟩
  · cases hr : s.input.busRsp with
    | false =>
      refine ⟨_, .waits (fun hq => ?_) hr⟩
      cases hx : s.upc <;> simp_all [State.busRequest, State.busy, Upc.busy]
    | true =>
      cases hx : s.upc with
      | idle | done | failed => simp [State.busy, Upc.busy, hx] at hb
      | check => exact absurd hx hu
      | wStart => exact ⟨_, .wStart hx hr⟩
      | wAddr => exact acks (.wAddr hx) hr
      | wMsb => exact acks (.wMsb hx) hr
      | wLsb => exact acks (.wLsb hx) hr
      | rAddr => exact acks (.rAddr hx) hr
      | midStop => exact ⟨_, .midStop hx hr⟩
      | rStart => exact ⟨_, .rStart hx hr⟩
      | rB0 => exact ⟨_, .rB0 hx hr⟩
      | rB1 => exact ⟨_, .rB1 hx hr⟩
      | rCrc => exact ⟨_, .rCrc hx hr⟩
      | finalStop =>
        cases hf : s.fail with
        | true => exact ⟨_, .endsFailed hx hf hr⟩
        | false => exact ⟨_, .endsDone hx hf hr⟩

/-- What the meaning of an operation answers: an accept in a block that is not busy, else one of the cases. -/
theorem exec_eq_next_cases {i : Instr} {s s' : State} (h : exec i s = .next s') :
    (s.busy = false ∧ s' = acceptCommand i.op (cmdRate i.cmd) (cmdRep i.cmd) s) ∨ (s.busy = true ∧ Fires i s s') := by
  cases hb : s.busy with
  | false =>
    rw [exec_of_not_busy i hb] at h
    cases h
    exact .inl ⟨rfl, rfl⟩
  | true =>
    obtain ⟨s'', hf⟩ := exists_fires i hb
    rw [hf.exec_eq] at h
    cases h
    exact .inr ⟨rfl, hf⟩

/-- A micro-step that is no waiting belongs to a busy state. -/
theorem Fires.busy {i : Instr} {s s' : State} (h : Fires i s s') : s.busy = true := by
  cases h with
  | waits hq => cases hu : s.upc <;> simp_all [State.busRequest, State.busy, Upc.busy]
  | acked call | nacked call => cases call <;> simp [State.busy, Upc.busy, *]
  | wStart hu | midStop hu | rStart hu | rB0 hu | rB1 hu | rCrc hu | mismatch hu | firstWord hu | onlyWord hu
    | secondWord hu | endsFailed hu | endsDone hu => simp [State.busy, Upc.busy, hu]

/-- What a step of the block answers. -/
inductive StepTo (s : State) : State → Prop
  | reset (hr : s.input.rst = true) : StepTo s (resetBlock s)
  | fires {i : Instr} {s' : State} (hr : s.input.rst = false) (hl : s.latched = some i) (hf : Fires i s s') : StepTo s s'
  | accepts {code : Word} (hr : s.input.rst = false) (hb : s.busy = false) (hv : s.input.cmdValid = true)
      (hw : wireCode s.rom (cmdOp s.input.cmd) (cmdRate s.input.cmd) (cmdRep s.input.cmd) = some code) :
      StepTo s { s with
        opR := cmdOp s.input.cmd, rateR := cmdRate s.input.cmd, repR := cmdRep s.input.cmd, codeR := code, fail := false,
        widx := 0, upc := .wStart, inputs := s.inputs.tail }
  | refuses (hr : s.input.rst = false) (hb : s.busy = false) (hv : s.input.cmdValid = true)
      (hw : wireCode s.rom (cmdOp s.input.cmd) (cmdRate s.input.cmd) (cmdRep s.input.cmd) = none) :
      StepTo s { s with
        opR := cmdOp s.input.cmd, rateR := cmdRate s.input.cmd, repR := cmdRep s.input.cmd, fail := false,
        widx := 0, upc := .failed, inputs := s.inputs.tail }
  | idles (hr : s.input.rst = false) (hb : s.busy = false) (hv : s.input.cmdValid = false) :
      StepTo s { s with inputs := s.inputs.tail }

/-- An offer is taken by its fields, whether or not they name an operation. -/
theorem step_of_offer {s : State} (hr : s.input.rst = false) (hb : s.busy = false) (hv : s.input.cmdValid = true) :
    step s = .next (acceptCommand (cmdOp s.input.cmd) (cmdRate s.input.cmd) (cmdRep s.input.cmd) s) := by
  cases hd : decode (offeredBytes s) with
  | error e => simp [step, hr, hb, hv, hd, acceptReserved]
  | ok p =>
    obtain ⟨i, rest⟩ := p
    obtain ⟨hi, -⟩ := (decode_cons_eq_ok_iff _ _ _ _).mp hd
    obtain ⟨hop, hrate, hrep⟩ := operationOf_latched hi
    simp [step, hr, hb, hv, hd, exec_eq_microStep, microStep_of_not_busy hb, hop, hrate, hrep]

theorem StepTo.step_eq {s s' : State} (h : StepTo s s') : step s = .next s' := by
  cases h with
  | reset hr => simp [step, hr]
  | fires hr hl hf => simp [step, hr, hf.busy, hl, hf.exec_eq]
  | accepts hr hb hv hw => rw [step_of_offer hr hb hv, acceptCommand_eq_accepted hw]
  | refuses hr hb hv hw => rw [step_of_offer hr hb hv, acceptCommand_eq_refused hw]
  | idles hr hb hv => simp [step, hr, hb, hv, waitForCommand, State.consume]

/-- One of the cases applies to every state, but for a running reserved number. -/
theorem exists_stepTo {s : State} (h : s.input.rst = false → s.busy = true → s.latched ≠ none) : ∃ s', StepTo s s' := by
  cases hr : s.input.rst with
  | true => exact ⟨_, .reset hr⟩
  | false =>
    cases hb : s.busy with
    | true =>
      obtain ⟨i, hl⟩ := Option.ne_none_iff_exists'.mp (h hr hb)
      obtain ⟨s', hf⟩ := exists_fires i hb
      exact ⟨s', .fires hr hl hf⟩
    | false =>
      cases hv : s.input.cmdValid with
      | false => exact ⟨_, .idles hr hb hv⟩
      | true =>
        cases hw : wireCode s.rom (cmdOp s.input.cmd) (cmdRate s.input.cmd) (cmdRep s.input.cmd) with
        | none => exact ⟨_, .refuses hr hb hv hw⟩
        | some code => exact ⟨_, .accepts hr hb hv hw⟩

/-- R71: the one state in which the block stops (log entry 11). -/
theorem step_of_reserved {s : State} (hr : s.input.rst = false) (hb : s.busy = true) (hl : s.latched = none) :
    step s = .fault .reservedOperationRunning := by
  simp [step, hr, hb, hl]

theorem stepTo_of_step {s s' : State} (h : step s = .next s') : StepTo s s' := by
  obtain ⟨s'', hs⟩ : ∃ s'', StepTo s s'' := by
    refine exists_stepTo fun hr hb hl => ?_
    rw [step_of_reserved hr hb hl] at h
    cases h
  have heq := hs.step_eq
  rw [h] at heq
  cases heq
  exact hs

/-! ### The step -/

/-- Settles O14. -/
theorem stepRunsTheDecodedInstruction : Obligations.StepRunsTheDecodedInstruction := by
  refine ⟨fun s i rest hr hb hv hd => ?_, fun s i hr hb hl => ?_⟩
  · have hd' : decode (offeredBytes s) = .ok (i, rest) := hd
    simp [step, hr, hb, hv, hd']
  · have hl' : s.latched = some i := hl
    simp [step, hr, hb, hl']

/-- Settles O15: the reserved number has no wire code. -/
theorem reservedNumberIsRefusedAtAccept : Obligations.ReservedNumberIsRefusedAtAccept := by
  intro s hr hb hv hop
  have hw : wireCode s.rom (cmdOp s.input.cmd) (cmdRate s.input.cmd) (cmdRep s.input.cmd) = none :=
    (illegalCommandsHaveNoWireCode _ _ _ _).mpr (.inl hop)
  have h := (StepTo.refuses hr hb hv hw).step_eq
  rw [hop] at h
  exact h

/-- Settles O16. -/
theorem blockWaitsForACommand : Obligations.BlockWaitsForACommand :=
  fun _ hr hb hv => (StepTo.idles hr hb hv).step_eq

/-- Settles O2: a reset step, whatever the state. -/
theorem rstOverridesEverything : Obligations.RstOverridesEverything := by
  intro s hr
  refine ⟨_, (StepTo.reset hr).step_eq, ?_⟩
  refine ⟨rfl, rfl, rfl, rfl, rfl, rfl, rfl, rfl, rfl, rfl, rfl, rfl, rfl, rfl, rfl, rfl, rfl, rfl, rfl⟩

/-- Settles O1. -/
theorem resetValuesAreThoseOfTheTable : Obligations.ResetValuesAreThoseOfTheTable :=
  ⟨rfl, rfl, rfl, rfl, rfl, rfl, rfl, rfl, rfl, rfl, rfl, rfl, rfl, rfl, rfl, rfl, rfl, rfl, rfl, rfl⟩

/-- No two of the three outcomes are possible at once, and only a running reserved number gives a fault. -/
theorem step_eq_fault_iff (s : State) (r : Fault) :
    step s = .fault r ↔ s.input.rst = false ∧ s.busy = true ∧ s.latched = none := by
  constructor
  · intro h
    by_contra hn
    obtain ⟨s', hs⟩ := exists_stepTo fun hr hb hl => hn ⟨hr, hb, hl⟩
    rw [hs.step_eq] at h
    cases h
  · rintro ⟨hr, hb, hl⟩
    cases r
    exact step_of_reserved hr hb hl

/-- Settles O18: every other state has a next state, and the control invariant forbids the reserved number while busy. -/
theorem stopsOnlyOnARunningReservedNumber : Obligations.StopsOnlyOnARunningReservedNumber := by
  have latched_iff (s : State) : s.latched = none ↔ s.opR = 7#3 := ofFields_eq_none_iff _ _ _
  refine ⟨fun s => ?_, fun s r h => ?_, fun s hinv => ?_⟩
  · simp only [step_eq_fault_iff, latched_iff]
    exact ⟨fun ⟨_, h⟩ => h, fun h => ⟨.reservedOperationRunning, h⟩⟩
  · by_cases hn : s.input.rst = false ∧ s.busy = true ∧ s.latched = none
    · rw [(step_eq_fault_iff s .reservedOperationRunning).mpr hn] at h
      cases h
    · obtain ⟨s', hs⟩ := exists_stepTo fun hr hb hl => hn ⟨hr, hb, hl⟩
      rw [hs.step_eq] at h
      cases h
  · obtain ⟨s', hs⟩ := exists_stepTo (s := s) fun _ hb => by
      obtain ⟨i, hi⟩ := hinv.latched_of_busy hb
      simp [hi]
    exact ⟨s', hs.step_eq⟩

/-- A micro-step does not look at what the host offers. -/
theorem microStep_of_busy_offer (o : Operation) {s : State} {i : Input} {rest : List Input} (valid : Bool) (cmd : Byte)
    (hb : s.busy = true) (hs : s.inputs = i :: rest) :
    microStep o { s with inputs := { i with cmdValid := valid, cmd := cmd } :: rest } = microStep o s := by
  obtain ⟨t, rh, st, upc, opR, rateR, repR, codeR, fail, widx, b0, b1, c, stage0, stage1, crc, rom, trace, inputs⟩ := s
  obtain rfl : inputs = i :: rest := hs
  cases upc with
  | idle | done | failed => cases hb
  | wStart | wAddr | wMsb | wLsb | midStop | rStart | rAddr | rB0 | rB1 | rCrc | check | finalStop => rfl

/-- Settles O17: a busy step takes no part of its inputs but the reset and the reply. -/
theorem offersWhileBusyAreIgnored : Obligations.OffersWhileBusyAreIgnored := by
  intro s i rest valid cmd hb hs
  have reset : resetBlock { s with inputs := { i with cmdValid := valid, cmd := cmd } :: rest } = resetBlock s := by
    simp [resetBlock, hs]
  have hi : s.input = i := State.input_cons s i rest hs
  have busy : ({ s with inputs := { i with cmdValid := valid, cmd := cmd } :: rest } : State).busy = true := hb
  simp only [step, reset, hb, busy, hi, exec_eq_microStep, microStep_of_busy_offer _ valid cmd hb hs, if_true]
  rfl

end Sys2Proof.Machine
end

section
/-! PROOFS. What each micro-step of an operation writes, and what it leaves unchanged (10_state.md R18 to R24, 42_sequencer.md R100
to R108, 60_exceptions.md R125, R126, R131). -/

namespace Sys2Proof.Machine

open Sys2Proof.Statements

/-! ### The micro-steps that stop, check, wait or end -/

/-- Settles O25: the control invariant gives the number of SINGLE_SHOT. -/
theorem intermediateStopOpensTheReadPhase : Obligations.IntermediateStopOpensTheReadPhase := by
  refine ⟨fun i s hu hr => (Fires.midStop hu hr).exec_eq, fun s hinv hu => ⟨s.rateR ++ s.repR, ?_⟩⟩
  rw [State.latched, hinv.midStop hu]
  rfl

/-- Settles O30: the three outcomes of a check; a second word is always the last. -/
theorem checkStagesOrAborts : Obligations.CheckStagesOrAborts := by
  intro i s hu
  refine ⟨fun hc => (Fires.mismatch hu hc).exec_eq, fun hc hx => ?_, fun hc hx => (Fires.secondWord hu hc hx).exec_eq⟩
  by_cases hk : 1 < (operationOf i).words
  · rw [if_pos hk, if_pos hk]
    exact (Fires.firstWord hu hc hx hk).exec_eq
  · have h := (Fires.onlyWord hu hc hx (Nat.le_of_not_lt hk)).exec_eq
    rw [if_neg hk, if_neg hk]
    rw [h, ← hx]

/-- Settles O31. -/
theorem failedOperationClosesWithAStop : Obligations.FailedOperationClosesWithAStop :=
  fun _ _ hu hf hr => (Fires.endsFailed hu hf hr).exec_eq

/-- Settles O32. -/
theorem unansweredCallWaits : Obligations.UnansweredCallWaits :=
  fun _ _ hq hr => (Fires.waits hq hr).exec_eq

/-- Settles O33: the four commit nothing. -/
theorem writeOnlyOperationsComplete : Obligations.WriteOnlyOperationsComplete := by
  intro u rate rep s hu hf hr
  have ends (i : Instr) := (Fires.endsDone (i := i) hu hf hr).exec_eq
  exact ⟨_, rfl, rfl, rfl, ends (.softReset u), ends (.setPeriodic rate rep), ends (.clearStatus u), ends (.breakOp u)⟩

/-- Settles O34: FETCH and SINGLE_SHOT commit both staged words, READ_STATUS the first. -/
theorem readOperationsComplete : Obligations.ReadOperationsComplete := by
  intro u s hu hf hr
  have ends (i : Instr) := (Fires.endsDone (i := i) hu hf hr).exec_eq
  exact ⟨⟨_, rfl, rfl, rfl, ends (.fetch u), ends (.singleShot u)⟩, ⟨_, rfl, rfl, rfl, ends (.readStatus u)⟩⟩

/-! ### The registers that a micro-step leaves unchanged -/

/-- The command register and the catalog are the same in both states. -/
structure SameCommand (s s' : State) : Prop where
  opR : s'.opR = s.opR
  rateR : s'.rateR = s.rateR
  repR : s'.repR = s.repR
  codeR : s'.codeR = s.codeR
  rom : s'.rom = s.rom

section
variable {i : Instr} {s s' : State}

theorem Fires.sameCommand (h : Fires i s s') : SameCommand s s' := by
  cases h with
  | endsDone hu hf hr => cases i <;> exact ⟨rfl, rfl, rfl, rfl, rfl⟩
  | waits | wStart | acked | nacked | midStop | rStart | rB0 | rB1 | rCrc | mismatch | firstWord | onlyWord | secondWord
    | endsFailed => exact ⟨rfl, rfl, rfl, rfl, rfl⟩

theorem SameCommand.latched (h : SameCommand s s') : s'.latched = s.latched := by
  rw [State.latched, h.opR, h.rateR, h.repR, State.latched]

theorem SameCommand.words (h : SameCommand s s') : s'.words = s.words := by
  rw [State.words, h.latched, State.words]

theorem SameCommand.midStopBetween (h : SameCommand s s') : s'.midStopBetween = s.midStopBetween := by
  rw [State.midStopBetween, h.latched, State.midStopBetween]

/-- The Sensor State is written by the answered closing stop of a success alone. -/
theorem Fires.sensor_eq (h : Fires i s s') (hn : ¬ (s.upc = .finalStop ∧ s.fail = false ∧ s.input.busRsp = true)) :
    s'.sensor = s.sensor := by
  cases h with
  | endsDone hu hf hr => exact absurd ⟨hu, hf, hr⟩ hn
  | waits | wStart | acked | nacked | midStop | rStart | rB0 | rB1 | rCrc | mismatch | firstWord | onlyWord | secondWord
    | endsFailed => rfl

/-- What a success commits, by operation. -/
theorem Fires.sensor_of_success (h : Fires i s s') (hu : s.upc = .finalStop) (hf : s.fail = false)
    (hr : s.input.busRsp = true) :
    s' = { commitWords (operationOf i).commit s with
      upc := .done, trace := s.trace ++ [.stop], inputs := s.inputs.tail } := by
  have hd := (Fires.endsDone (i := i) hu hf hr).exec_eq
  rw [h.exec_eq] at hd
  cases hd
  rfl

/-- The byte latches are written by the three reads, each by its own. -/
theorem Fires.latches_eq (h : Fires i s s') :
    (s.upc ≠ .rB0 → s'.b0 = s.b0) ∧ (s.upc ≠ .rB1 → s'.b1 = s.b1) ∧ (s.upc ≠ .rCrc → s'.c = s.c) := by
  cases h with
  | rB0 hu => exact ⟨absurd hu, fun _ => rfl, fun _ => rfl⟩
  | rB1 hu => exact ⟨fun _ => rfl, absurd hu, fun _ => rfl⟩
  | rCrc hu => exact ⟨fun _ => rfl, fun _ => rfl, absurd hu⟩
  | endsDone => cases i <;> exact ⟨fun _ => rfl, fun _ => rfl, fun _ => rfl⟩
  | waits | wStart | acked | nacked | midStop | rStart | mismatch | firstWord | onlyWord | secondWord | endsFailed =>
    exact ⟨fun _ => rfl, fun _ => rfl, fun _ => rfl⟩

/-- The staged words, `crc` and `widx` are written by the check alone. -/
theorem Fires.staging_eq (h : Fires i s s') (hu : s.upc ≠ .check) :
    s'.stage0 = s.stage0 ∧ s'.stage1 = s.stage1 ∧ s'.crc = s.crc ∧ s'.widx = s.widx := by
  cases h with
  | mismatch hc | firstWord hc | onlyWord hc | secondWord hc => exact absurd hc hu
  | endsDone => cases i <;> exact ⟨rfl, rfl, rfl, rfl⟩
  | waits | wStart | acked | nacked | midStop | rStart | rB0 | rB1 | rCrc | endsFailed => exact ⟨rfl, rfl, rfl, rfl⟩

/-- The check stages a word in the place of its index. -/
theorem Fires.staging_of_check (h : Fires i s s') (hu : s.upc = .check) :
    (s.widx = 0#1 → s'.stage1 = s.stage1) ∧ (s.widx = 1#1 → s'.stage0 = s.stage0) := by
  cases h with
  | mismatch => exact ⟨fun _ => rfl, fun _ => rfl⟩
  | firstWord _ _ hx | onlyWord _ _ hx => exact ⟨fun _ => rfl, fun hx' => by simp [hx] at hx'⟩
  | secondWord _ _ hx => exact ⟨fun hx' => by simp [hx] at hx', fun _ => rfl⟩
  | waits hq => exact absurd (by simp [State.busRequest, hu]) hq
  | acked call | nacked call => cases call <;> simp_all
  | wStart hu' | midStop hu' | rStart hu' | rB0 hu' | rB1 hu' | rCrc hu' | endsFailed hu' | endsDone hu' =>
    simp [hu] at hu'

end

theorem acceptCommand_rom (op : BitVec 3) (rate : BitVec 3) (rep : BitVec 2) (s : State) :
    (acceptCommand op rate rep s).rom = s.rom := by
  cases h : wireCode s.rom op rate rep with
  | none => rw [acceptCommand_eq_refused h]
  | some code => rw [acceptCommand_eq_accepted h]

theorem acceptCommand_sensor (op : BitVec 3) (rate : BitVec 3) (rep : BitVec 2) (s : State) :
    (acceptCommand op rate rep s).sensor = s.sensor := by
  cases h : wireCode s.rom op rate rep with
  | none => rw [acceptCommand_eq_refused h]; rfl
  | some code => rw [acceptCommand_eq_accepted h]; rfl

/-- Accept leaves the received bytes and the staged words of the operation before. -/
theorem acceptCommand_buffers (op : BitVec 3) (rate : BitVec 3) (rep : BitVec 2) (s : State) :
    (acceptCommand op rate rep s).b0 = s.b0 ∧ (acceptCommand op rate rep s).b1 = s.b1 ∧
      (acceptCommand op rate rep s).c = s.c ∧ (acceptCommand op rate rep s).stage0 = s.stage0 ∧
      (acceptCommand op rate rep s).stage1 = s.stage1 ∧ (acceptCommand op rate rep s).crc = s.crc := by
  cases h : wireCode s.rom op rate rep with
  | none => rw [acceptCommand_eq_refused h]; exact ⟨rfl, rfl, rfl, rfl, rfl, rfl⟩
  | some code => rw [acceptCommand_eq_accepted h]; exact ⟨rfl, rfl, rfl, rfl, rfl, rfl⟩

/-- Settles O12: no case of a step writes the tables. -/
theorem catalogIsNeverWritten : Obligations.CatalogIsNeverWritten := by
  intro s s' hs
  cases stepTo_of_step hs with
  | reset | accepts | refuses | idles => rfl
  | fires _ _ hf => exact hf.sameCommand.rom

/-- Settles O39: the commit of each operation names the registers that it writes. -/
theorem sensorStateFrame : Obligations.SensorStateFrame := by
  intro i s s' h
  obtain ⟨hb, rfl⟩ | ⟨hb, hf⟩ := exec_eq_next_cases h
  · have hsens := acceptCommand_sensor i.op (cmdRate i.cmd) (cmdRep i.cmd) s
    obtain ⟨ht, hrh, hst⟩ := SensorState.mk.inj hsens
    refine ⟨acceptCommand_rom _ _ _ _, fun _ => hsens, ?_⟩
    cases i with
    | softReset | setPeriodic | clearStatus | breakOp => exact hsens
    | fetch | singleShot => exact hst
    | readStatus => exact ⟨ht, hrh⟩
  · refine ⟨hf.sameCommand.rom, hf.sensor_eq, ?_⟩
    by_cases hd : s.upc = .finalStop ∧ s.fail = false ∧ s.input.busRsp = true
    · obtain ⟨hu, hfail, hr⟩ := hd
      obtain rfl := hf.sensor_of_success hu hfail hr
      cases i with
      | softReset | setPeriodic | clearStatus | breakOp | fetch | singleShot => rfl
      | readStatus => exact ⟨rfl, rfl⟩
    · have hsens := hf.sensor_eq hd
      obtain ⟨ht, hrh, hst⟩ := SensorState.mk.inj hsens
      cases i with
      | softReset | setPeriodic | clearStatus | breakOp => exact hsens
      | fetch | singleShot => exact hst
      | readStatus => exact ⟨ht, hrh⟩

/-- Settles O40: accept writes the command registers of a block that is not busy, and a micro-step the registers of its
micro-state. -/
theorem internalRegisterFrame : Obligations.InternalRegisterFrame := by
  intro i s s' h
  obtain ⟨hb, rfl⟩ | ⟨hb, hf⟩ := exec_eq_next_cases h
  · obtain ⟨h0, h1, hc, hs0, hs1, hcrc⟩ := acceptCommand_buffers i.op (cmdRate i.cmd) (cmdRep i.cmd) s
    simp [hb, h0, h1, hc, hs0, hs1, hcrc]
  · obtain ⟨h0, h1, hc⟩ := hf.latches_eq
    obtain ⟨hop, hrate, hrep, hcode, -⟩ := hf.sameCommand
    refine ⟨fun _ => ⟨hop, hrate, hrep, hcode⟩, h0, h1, hc, fun hu => ?_, fun hu => (hf.staging_of_check hu).1,
      fun hu => (hf.staging_of_check hu).2, fun _ hu => ?_, fun _ hu => ?_⟩
    · obtain ⟨hs0, hs1, hcrc, -⟩ := hf.staging_eq hu
      exact ⟨hs0, hs1, hcrc⟩
    · obtain ⟨-, -, -, hx⟩ := hf.staging_eq hu
      exact hx
    · have hn : ¬ StepFails s := by
        rintro (⟨hmem, -, -⟩ | ⟨hcheck, -⟩)
        · exact hu (by revert hmem; simp only [List.mem_cons]; tauto)
        · exact hu (by simp [hcheck])
      have heq := hf.exec_eq
      rw [exec_eq_microStep] at heq
      cases heq
      exact microStep_fail_of_not_stepFails _ hb hn

/-- Settles O41. -/
theorem traceRecordsThePortCall : Obligations.TraceRecordsThePortCall :=
  fun _ _ hr hs => step_trace hr hs

/-- Settles O43: of the cases of a step, only the answered closing stop of a success writes the Sensor State. -/
theorem onlyASuccessChangesTheSensorState : Obligations.OnlyASuccessChangesTheSensorState := by
  intro s s' hr hs hne
  cases stepTo_of_step hs with
  | reset hr' => simp [hr] at hr'
  | accepts | refuses | idles => exact absurd rfl hne
  | fires _ _ hf =>
    obtain ⟨hu, hfail, ha⟩ := not_not.mp (mt hf.sensor_eq hne)
    obtain rfl := hf.sensor_of_success hu hfail ha
    exact ⟨hu, hfail, hf.busy, rfl, rfl, rfl, rfl⟩

/-- A failed operation in `FINAL_STOP`, whose stop is answered. -/
theorem step_of_failed_answered {s : State} {i : Instr} {j : Input} {rest : List Input} (hl : s.latched = some i)
    (hu : s.upc = .finalStop) (hf : s.fail = true) (hs : s.inputs = j :: rest) (hr : j.rst = false) (ha : j.busRsp = true) :
    step s = .next { s with upc := .failed, trace := s.trace ++ [.stop], inputs := rest } := by
  have hi : s.input = j := State.input_cons s j rest hs
  have h := (StepTo.fires (by rw [hi, hr]) hl (.endsFailed hu hf (by rw [hi, ha]))).step_eq
  simpa [hs] using h

/-- A step into `FINAL_STOP` with `fail` set, and the answered stop after it. -/
theorem runFor_two_of_failed {s s₁ : State} {i : Instr} {j : Input} {rest : List Input} (h₁ : step s = .next s₁)
    (hl : s₁.latched = some i) (hu : s₁.upc = .finalStop) (hf : s₁.fail = true) (hs : s₁.inputs = j :: rest)
    (hr : j.rst = false) (ha : j.busRsp = true) :
    runFor 2 s = .next { s₁ with upc := .failed, trace := s₁.trace ++ [.stop], inputs := rest } := by
  rw [runFor_succ_of_next 1 h₁, runFor_succ_of_next 0 (step_of_failed_answered hl hu hf hs hr ha), runFor_zero]

/-- Settles O44: the failing micro-step sets `fail`, and the answered stop after it ends in `FAILED`. -/
theorem failuresEnterFailed : Obligations.FailuresEnterFailed := by
  intro s i j rest hinv hs hri hrj haj
  have hi : s.input = i := State.input_cons s i _ hs
  have hr : s.input.rst = false := by rw [hi, hri]
  have htail : s.inputs.tail = j :: rest := by rw [hs]; rfl
  refine ⟨fun q hu har hak hq => ?_, fun hu hc => ?_⟩
  · obtain ⟨op, hl⟩ := hinv.latched_of_busy (busy_of_stepFails (.inl ⟨hu, by rw [hi, har], by rw [hi, hak]⟩))
    obtain ⟨entry, after, call⟩ := exists_ackCall (operationOf op) hu
    obtain ⟨q', hq', hent⟩ := call.exists_request
    obtain rfl : q' = q := by simpa [hq'] using hq
    have h₁ := (StepTo.fires hr hl (.nacked call (by rw [hi, har]) (by rw [hi, hak]))).step_eq
    rw [runFor_two_of_failed h₁ hl rfl rfl htail hrj haj]
    simp [hent, hak]
  · obtain ⟨op, hl⟩ := hinv.latched_of_busy (busy_of_stepFails (.inr ⟨hu, hc⟩))
    have h₁ := (StepTo.fires hr hl (.mismatch hu hc)).step_eq
    exact runFor_two_of_failed h₁ hl rfl rfl htail hrj haj

end Sys2Proof.Machine
end

section
/-! PROOFS. Every step keeps the three invariants of Safety.lean (10_state.md sections 3 to 6, 40_bus_primitives.md R83, R84,
10_state.md R21), and what they give. -/

namespace Sys2Proof.Machine

/-! ### The control invariant, read by micro-state -/

/-- What the control invariant says of `fail`, `widx` and `K` in each micro-state. -/
def PhaseInv (upc : Upc) (fail : Bool) (widx : BitVec 1) (words : Nat) (op : BitVec 3) : Prop :=
  match upc with
  | .idle => fail = false
  | .done => fail = false
  | .failed => True
  | .wStart => fail = false ∧ widx = 0#1
  | .wAddr => fail = false ∧ widx = 0#1
  | .wMsb => fail = false ∧ widx = 0#1
  | .wLsb => fail = false ∧ widx = 0#1
  | .midStop => fail = false ∧ widx = 0#1 ∧ op = 3#3
  | .rStart => fail = false ∧ widx = 0#1 ∧ 0 < words
  | .rAddr => fail = false ∧ widx = 0#1 ∧ 0 < words
  | .rB0 => fail = false ∧ widx.toNat < words
  | .rB1 => fail = false ∧ widx.toNat < words
  | .rCrc => fail = false ∧ widx.toNat < words
  | .check => fail = false ∧ widx.toNat < words
  | .finalStop => fail = false → 0 < words → widx.toNat + 1 = words

/-- `PhaseInv` of a state's own registers. -/
def State.PhaseInv (s : State) : Prop := Machine.PhaseInv s.upc s.fail s.widx s.words s.opR

theorem ControlInv.phaseInv {s : State} (h : ControlInv s) : s.PhaseInv := by
  have notFail := h.not_fail
  obtain ⟨-, -, hmid, hreads, hindex, hfirst, hlast, -⟩ := h
  unfold State.PhaseInv
  cases hu : s.upc with
  | idle | done => exact notFail (by simp [hu]) (by simp [hu])
  | failed => trivial
  | finalStop => exact hlast hu
  | wStart | wAddr | wMsb | wLsb =>
    exact ⟨notFail (by simp [hu]) (by simp [hu]),
      hfirst (by simp [State.busy, Upc.busy, hu]) (by simp [Upc.inWord, hu]) (by simp [hu])⟩
  | midStop =>
    exact ⟨notFail (by simp [hu]) (by simp [hu]),
      hfirst (by simp [State.busy, Upc.busy, hu]) (by simp [Upc.inWord, hu]) (by simp [hu]), hmid hu⟩
  | rStart | rAddr =>
    exact ⟨notFail (by simp [hu]) (by simp [hu]),
      hfirst (by simp [State.busy, Upc.busy, hu]) (by simp [Upc.inWord, hu]) (by simp [hu]),
      hreads (by simp [Upc.inReadPhase, hu])⟩
  | rB0 | rB1 | rCrc | check =>
    exact ⟨notFail (by simp [hu]) (by simp [hu]), hindex (by simp [Upc.inWord, hu])⟩

/-- The control invariant is the wire code of a running command and what holds in the micro-state. -/
theorem controlInv_of_phaseInv {s : State}
    (hcode : s.busy = true → wireCode s.rom s.opR s.rateR s.repR = some s.codeR) (h : s.PhaseInv) : ControlInv s := by
  unfold State.PhaseInv at h
  refine ⟨fun hb => legal_of_wireCode (hcode hb), hcode, fun hu => ?_, fun hu => ?_, fun hu => ?_, fun _ hu hn => ?_,
    fun hu => ?_, fun hf => ?_⟩
  · rw [hu] at h
    obtain ⟨-, -, hop⟩ := h
    exact hop
  all_goals cases hx : s.upc <;> simp_all [Machine.PhaseInv, Upc.inReadPhase, Upc.inWord, State.busy, Upc.busy]
  all_goals omega

/-- The operation number 3 is SINGLE_SHOT's, which reads two words. -/
theorem words_of_singleShot {s : State} (h : s.opR = 3#3) : s.words = 2 := by
  rw [State.words, State.latched, h]
  rfl

theorem midStopBetween_of_singleShot {s : State} (h : s.opR = 3#3) : s.midStopBetween = true := by
  rw [State.midStopBetween, State.latched, h]
  rfl

/-- Where a fully acknowledged write phase goes on, the invariant of that micro-state holds. -/
theorem phaseInv_afterWritePhase {s : State} {i : Instr} (hl : s.latched = some i) (hf : s.fail = false)
    (hx : s.widx = 0#1) : Machine.PhaseInv (afterWritePhase (operationOf i)) s.fail s.widx s.words s.opR := by
  have hk : s.words = (operationOf i).words := State.words_of_latched hl
  obtain ⟨hop, -, -⟩ := operationOf_latched hl
  rw [hk, ← hop]
  cases i with
  | softReset | setPeriodic | clearStatus | breakOp => exact fun _ h => absurd h (Nat.lt_irrefl 0)
  | fetch => exact ⟨hf, hx, Nat.two_pos⟩
  | singleShot => exact ⟨hf, hx, rfl⟩
  | readStatus => exact ⟨hf, hx, Nat.one_pos⟩

theorem Fires.keeps_phaseInv {s s' : State} {i : Instr} (hf : Fires i s s') (hl : s.latched = some i) (h : s.PhaseInv) :
    s'.PhaseInv := by
  have hk : s.words = (operationOf i).words := State.words_of_latched hl
  have fails (t : State) : Machine.PhaseInv .finalStop true t.widx t.words t.opR := by intro hfail; cases hfail
  cases hf with
  | waits => exact h
  | nacked | mismatch => exact fails _
  | wStart hu | rStart hu | rB0 hu | rB1 hu | rCrc hu =>
    unfold State.PhaseInv at h
    rw [hu] at h
    exact h
  | acked call =>
    unfold State.PhaseInv at h
    cases call with
    | wAddr hu | wMsb hu => rw [hu] at h; exact h
    | wLsb hu =>
      rw [hu] at h
      obtain ⟨hfail, hx⟩ := h
      exact phaseInv_afterWritePhase hl hfail hx
    | rAddr hu =>
      rw [hu] at h
      obtain ⟨hfail, hx, hpos⟩ := h
      exact ⟨hfail, show s.widx.toNat < s.words by simpa [hx] using hpos⟩
  | midStop hu =>
    unfold State.PhaseInv at h
    rw [hu] at h
    obtain ⟨hfail, hx, hop⟩ := h
    exact ⟨hfail, hx, (words_of_singleShot hop).symm ▸ Nat.two_pos⟩
  | firstWord hu hc hx hk' =>
    unfold State.PhaseInv at h
    rw [hu] at h
    obtain ⟨hfail, -⟩ := h
    exact ⟨hfail, hk.symm ▸ hk'⟩
  | onlyWord hu hc hx hk' =>
    intro _ hpos
    have hw : s.words = 1 := Nat.le_antisymm (hk ▸ hk') hpos
    exact (congrArg (fun x : BitVec 1 => x.toNat + 1) hx).trans hw.symm
  | secondWord hu hc hx =>
    unfold State.PhaseInv at h
    rw [hu, hx] at h
    obtain ⟨-, hlt⟩ := h
    intro _ _
    have hw : s.words = 2 := Nat.le_antisymm (hk ▸ operationOf_words_le i) hlt
    exact (congrArg (fun x : BitVec 1 => x.toNat + 1) hx).trans hw.symm
  | endsFailed => trivial
  | endsDone hu hfail => cases i <;> exact hfail

/-! ### The reset state, and O46 -/

theorem controlInv_resetBlock (s : State) : ControlInv (resetBlock s) :=
  controlInv_of_phaseInv (fun hb => by cases hb) rfl

theorem Fires.keeps_controlInv {s s' : State} {i : Instr} (hf : Fires i s s') (hl : s.latched = some i) (h : ControlInv s) :
    ControlInv s' := by
  refine controlInv_of_phaseInv (fun _ => ?_) (hf.keeps_phaseInv hl h.phaseInv)
  obtain ⟨hop, hrate, hrep, hcode, hrom⟩ := hf.sameCommand
  rw [hop, hrate, hrep, hcode, hrom]
  exact h.code hf.busy

/-- Settles O46: a micro-step keeps the command and moves to a micro-state whose conditions hold; accept latches a command with
its wire code. -/
theorem controlInvariantIsKept : Obligations.ControlInvariantIsKept := by
  intro s s' h hs
  cases stepTo_of_step hs with
  | reset => exact controlInv_resetBlock s
  | fires _ hl hf => exact hf.keeps_controlInv hl h
  | accepts _ _ _ hw => exact controlInv_of_phaseInv (fun _ => hw) ⟨rfl, rfl⟩
  | refuses => exact controlInv_of_phaseInv (fun hb => by cases hb) trivial
  | idles => exact controlInv_of_phaseInv h.code h.phaseInv

/-! ### The bracket contract -/

theorem afterAll_append_singleton (p : BusPhase) (calls : List BusCall) (call : BusCall) :
    p.afterAll (calls ++ [call]) = (p.afterAll calls).bind (·.after call) := by
  induction calls generalizing p with
  | nil => cases h : p.after call <;> simp [BusPhase.afterAll, h]
  | cons c calls ih => cases h : p.after c <;> simp [BusPhase.afterAll, h, ih]

/-- A call that the contract allows where the trace ends keeps the contract. -/
theorem traceInv_of_call {s s' : State} {p q : BusPhase} {call : BusCall} (hp : busPhase s.trace = some p)
    (ht : s'.trace = s.trace ++ [call]) (hq : p.after call = some q) (hfits : s'.phaseFits q = true) : TraceInv s' :=
  ⟨q, by rw [ht, busPhase, afterAll_append_singleton, ← busPhase, hp]; exact hq, hfits⟩

theorem traceInv_resetBlock (s : State) : TraceInv (resetBlock s) := ⟨.closed, rfl, rfl⟩

/-! The phase that fits where it depends on more than the micro-state. -/

section
variable {s : State}

theorem phaseFits_rStart_iff (hu : s.upc = .rStart) (p : BusPhase) :
    s.phaseFits p = true ↔ p = if s.midStopBetween then .closed else .twoBytes := by
  simp [State.phaseFits, hu]

theorem phaseFits_rAddr_iff (hu : s.upc = .rAddr) (p : BusPhase) :
    s.phaseFits p = true ↔ p = if s.midStopBetween then .opened else .reopened := by
  simp [State.phaseFits, hu]

theorem phaseFits_check_iff (hu : s.upc = .check) (p : BusPhase) :
    s.phaseFits p = true ↔ p = if s.moreFollow s.words then .reading else .mustStop := by
  simp [State.phaseFits, hu]

theorem phaseFits_failing_iff (hu : s.upc = .finalStop) (hf : s.fail = true) (p : BusPhase) :
    s.phaseFits p = true ↔ p = .mustStop ∨ p = .reading := by
  simp [State.phaseFits, hu, hf]

theorem phaseFits_closing_iff (hu : s.upc = .finalStop) (hf : s.fail = false) (p : BusPhase) :
    s.phaseFits p = true ↔ p = if s.words = 0 then .twoBytes else .mustStop := by
  simp [State.phaseFits, hu, hf]

/-- At `R_ADDR` the bracket has just been opened or reopened, and takes the address with read intent. -/
theorem after_addressRead_of_fits (hu : s.upc = .rAddr) {p : BusPhase} (hfits : s.phaseFits p = true) (ack : Bool) :
    p.after (.addressRead 0x44#7 ack) = some (if ack then .reading else .mustStop) := by
  rw [phaseFits_rAddr_iff hu] at hfits
  subst hfits
  cases s.midStopBetween <;> rfl

/-- The closing stop is allowed wherever it is due. -/
theorem after_stop_of_fits (hu : s.upc = .finalStop) {p : BusPhase} (hfits : s.phaseFits p = true) :
    p.after .stop = some .closed := by
  cases hf : s.fail with
  | true =>
    obtain rfl | rfl := (phaseFits_failing_iff hu hf p).mp hfits
    · rfl
    · rfl
  | false =>
    rw [phaseFits_closing_iff hu hf] at hfits
    subst hfits
    split <;> rfl

/-- No bracket is open when no operation runs. -/
theorem phaseFits_iff_of_not_busy (hb : s.busy = false) (p : BusPhase) : s.phaseFits p = true ↔ p = .closed := by
  cases hu : s.upc <;> simp_all [State.phaseFits, State.busy, Upc.busy]

/-- After the last word, whose checksum byte was not acknowledged, only the closing stop is left. -/
theorem traceInv_of_lastWord {s' : State} (hu : s.upc = .check) (hlast : s.moreFollow s.words = false) (ht : TraceInv s)
    (htrace : s'.trace = s.trace) (hu' : s'.upc = .finalStop) (hf' : s'.fail = false) (hk' : s'.words ≠ 0) :
    TraceInv s' := by
  obtain ⟨p, hp, hfits⟩ := ht
  rw [phaseFits_check_iff hu, hlast] at hfits
  exact ⟨p, htrace ▸ hp, (phaseFits_closing_iff hu' hf' p).mpr (by rw [if_neg hk']; exact hfits)⟩

/-- Where a fully acknowledged write phase goes on, both command bytes stand on the bus. -/
theorem phaseFits_afterWritePhase {i : Instr} (hu : s.upc = afterWritePhase (operationOf i)) (hl : s.latched = some i)
    (hf : s.fail = false) : s.phaseFits .twoBytes = true := by
  have hk := State.words_of_latched hl
  have hm := State.midStopBetween_of_latched hl
  cases i with
  | softReset | setPeriodic | clearStatus | breakOp => exact (phaseFits_closing_iff hu hf _).mpr (if_pos hk).symm
  | fetch | readStatus => exact (phaseFits_rStart_iff hu _).mpr (by rw [hm]; rfl)
  | singleShot => simp [State.phaseFits, show s.upc = .midStop from hu]

end

theorem Fires.keeps_traceInv {s s' : State} {i : Instr} (hf : Fires i s s') (hl : s.latched = some i) (h : s.PhaseInv)
    (ht : TraceInv s) : TraceInv s' := by
  have hk : s.words = (operationOf i).words := State.words_of_latched hl
  have ⟨p, hp, hfits⟩ := ht
  unfold State.PhaseInv at h
  cases hf with
  | waits => exact ⟨p, hp, hfits⟩
  | wStart hu =>
    obtain rfl : p = .closed := by simpa [State.phaseFits, hu] using hfits
    exact traceInv_of_call hp rfl rfl rfl
  | acked call =>
    cases call with
    | wAddr hu =>
      obtain rfl : p = .opened := by simpa [State.phaseFits, hu] using hfits
      exact traceInv_of_call hp rfl rfl rfl
    | wMsb hu =>
      obtain rfl : p = .addressed := by simpa [State.phaseFits, hu] using hfits
      exact traceInv_of_call hp rfl rfl rfl
    | wLsb hu =>
      obtain rfl : p = .oneByte := by simpa [State.phaseFits, hu] using hfits
      rw [hu] at h
      obtain ⟨hfail, -⟩ := h
      exact traceInv_of_call hp rfl rfl (phaseFits_afterWritePhase rfl hl hfail)
    | rAddr hu => exact traceInv_of_call hp rfl (after_addressRead_of_fits hu hfits true) rfl
  | nacked call =>
    cases call with
    | wAddr hu =>
      obtain rfl : p = .opened := by simpa [State.phaseFits, hu] using hfits
      exact traceInv_of_call hp rfl rfl rfl
    | wMsb hu =>
      obtain rfl : p = .addressed := by simpa [State.phaseFits, hu] using hfits
      exact traceInv_of_call hp rfl rfl rfl
    | wLsb hu =>
      obtain rfl : p = .oneByte := by simpa [State.phaseFits, hu] using hfits
      exact traceInv_of_call hp rfl rfl rfl
    | rAddr hu => exact traceInv_of_call hp rfl (after_addressRead_of_fits hu hfits false) rfl
  | midStop hu =>
    obtain rfl : p = .twoBytes := by simpa [State.phaseFits, hu] using hfits
    rw [hu] at h
    obtain ⟨-, -, hop⟩ := h
    exact traceInv_of_call hp rfl rfl ((phaseFits_rStart_iff rfl _).mpr (if_pos (midStopBetween_of_singleShot hop)).symm)
  | rStart hu =>
    rw [phaseFits_rStart_iff hu] at hfits
    subst hfits
    refine traceInv_of_call hp rfl ?_ ((phaseFits_rAddr_iff rfl _).mpr rfl)
    show _ = some (if s.midStopBetween then BusPhase.opened else .reopened)
    cases s.midStopBetween <;> rfl
  | rB0 hu | rB1 hu =>
    obtain rfl : p = .reading := by simpa [State.phaseFits, hu] using hfits
    exact traceInv_of_call hp rfl rfl rfl
  | rCrc hu =>
    obtain rfl : p = .reading := by simpa [State.phaseFits, hu] using hfits
    refine traceInv_of_call hp rfl ?_ ((phaseFits_check_iff rfl _).mpr rfl)
    rw [← hk]
    rfl
  | mismatch hu =>
    rw [phaseFits_check_iff hu] at hfits
    refine ⟨p, hp, (phaseFits_failing_iff rfl rfl _).mpr ?_⟩
    subst hfits
    cases s.moreFollow s.words <;> simp
  | firstWord hu hc hx hk' =>
    have more : s.moreFollow s.words = true := by simpa [State.moreFollow, hx, hk] using hk'
    rw [phaseFits_check_iff hu, if_pos more] at hfits
    subst hfits
    exact ⟨_, hp, rfl⟩
  | onlyWord hu hc hx hk' =>
    rw [hu] at h
    obtain ⟨hfail, hlt⟩ := h
    have last : s.moreFollow s.words = false := by simpa [State.moreFollow, hx, hk] using hk'
    exact traceInv_of_lastWord hu last ht rfl rfl hfail (Nat.ne_zero_of_lt hlt)
  | secondWord hu hc hx =>
    rw [hu] at h
    obtain ⟨hfail, hlt⟩ := h
    have last : s.moreFollow s.words = false := by simpa [State.moreFollow, hx, hk] using operationOf_words_le i
    exact traceInv_of_lastWord hu last ht rfl rfl hfail (Nat.ne_zero_of_lt hlt)
  | endsFailed hu | endsDone hu => exact traceInv_of_call hp rfl (after_stop_of_fits hu hfits) rfl

/-- Settles O47: each call of a micro-step is allowed in the phase that its micro-state goes with, and an accept finds no
bracket open. -/
theorem bracketContractIsKept : Obligations.BracketContractIsKept := by
  intro s s' h ht hs
  cases stepTo_of_step hs with
  | reset => exact traceInv_resetBlock s
  | fires _ hl hf => exact hf.keeps_traceInv hl h.phaseInv ht
  | accepts _ hb | refuses _ hb =>
    obtain ⟨p, hp, hfits⟩ := ht
    rw [phaseFits_iff_of_not_busy hb] at hfits
    subst hfits
    exact ⟨_, hp, rfl⟩
  | idles => exact ht

/-- The phases of a micro-state with an open bracket are those with an open bracket. -/
theorem bracketOpen_of_phaseFits {s : State} {p : BusPhase} (h : s.phaseFits p = true) :
    s.bracketOpen = false ↔ p = .closed := by
  cases hu : s.upc with
  | rStart =>
    rw [phaseFits_rStart_iff hu] at h
    subst h
    cases hm : s.midStopBetween <;> simp [State.bracketOpen, hu, hm]
  | rAddr =>
    rw [phaseFits_rAddr_iff hu] at h
    subst h
    cases hm : s.midStopBetween <;> simp [State.bracketOpen, hu]
  | check =>
    rw [phaseFits_check_iff hu] at h
    subst h
    cases hm : s.moreFollow s.words <;> simp [State.bracketOpen, hu]
  | finalStop =>
    have hne : p ≠ .closed := by rintro rfl; cases after_stop_of_fits hu h
    simp [State.bracketOpen, hu, hne]
  | idle | done | failed | wStart | wAddr | wMsb | wLsb | midStop | rB0 | rB1 | rCrc =>
    simp only [State.phaseFits, hu, beq_iff_eq] at h
    simp [State.bracketOpen, hu, h]

/-- Settles O49: the trace ends in a phase that fits the micro-state. -/
theorem bracketIsOpenAsTheMicroStateSays : Obligations.BracketIsOpenAsTheMicroStateSays := by
  rintro s ⟨p, hp, hfits⟩
  have closed_iff : busPhase s.trace = some .closed ↔ p = .closed := by simp [hp]
  rw [closed_iff]
  exact ⟨bracketOpen_of_phaseFits hfits, fun hb => (phaseFits_iff_of_not_busy hb p).mp hfits⟩

/-! ### The Sensor State -/

/-- A word that has been received stays received, whatever calls follow. -/
theorem Received.append {trace : List BusCall} {w : Word} (h : Received trace w) (calls : List BusCall) :
    Received (trace ++ calls) w := by
  obtain ⟨before, after, ack, rfl⟩ := h
  exact ⟨before, after ++ calls, ack, by simp⟩

/-- A frame at the end of the trace whose checksum matches is a received word. -/
theorem received_of_frame {trace before : List BusCall} {ack : Bool} {b0 b1 c : Byte}
    (ht : trace = before ++ [.read true b0, .read true b1, .read ack c]) (hc : crc8 (rawWord b0 b1) = c) :
    Received trace (rawWord b0 b1) :=
  ⟨before, [], ack, by simp [ht, hc]⟩

/-- A micro-step makes at most one call, after those made before it. -/
theorem Fires.trace_append {s s' : State} {i : Instr} (h : Fires i s s') : ∃ calls, s'.trace = s.trace ++ calls := by
  cases h with
  | waits | mismatch | firstWord | onlyWord | secondWord => exact ⟨[], (List.append_nil _).symm⟩
  | wStart | acked | nacked | midStop | rStart | rB0 | rB1 | rCrc | endsFailed | endsDone => exact ⟨_, rfl⟩

/-- Each Sensor State register of a state holds its reset value or a received word. -/
def State.SensorValidated (s : State) : Prop :=
  (s.t = 0 ∨ Received s.trace s.t) ∧ (s.rh = 0 ∨ Received s.trace s.rh) ∧ (s.st = 0 ∨ Received s.trace s.st)

theorem DataInv.sensorValidated {s : State} (h : DataInv s) : s.SensorValidated := ⟨h.temperature, h.humidity, h.status⟩

/-- Validated registers stay so while more calls are made. -/
theorem State.SensorValidated.of_sensor_eq {s s' : State} {calls : List BusCall} (h : s.SensorValidated)
    (hsens : s'.sensor = s.sensor) (ht : s'.trace = s.trace ++ calls) : s'.SensorValidated := by
  obtain ⟨h0, h1, h2⟩ := SensorState.mk.inj hsens
  unfold State.SensorValidated
  rw [h0, h1, h2, ht]
  obtain ⟨ht, hrh, hst⟩ := h
  exact ⟨ht.imp_right (·.append calls), hrh.imp_right (·.append calls), hst.imp_right (·.append calls)⟩

/-- A success commits words that have been received. -/
theorem Fires.keeps_sensorValidated {s s' : State} {i : Instr} (hf : Fires i s s') (hl : s.latched = some i)
    (h : DataInv s) : s'.SensorValidated := by
  by_cases hd : s.upc = .finalStop ∧ s.fail = false ∧ s.input.busRsp = true
  · obtain ⟨hu, hfail, hr⟩ := hd
    obtain rfl := hf.sensor_of_success hu hfail hr
    have hk := State.words_of_latched hl
    have old := h.sensorValidated.of_sensor_eq (s' := { s with trace := s.trace ++ [.stop] }) rfl rfl
    have first (hpos : 0 < s.words) : Received (s.trace ++ [.stop]) s.stage0 := (h.stagedOne hu hfail hpos).append _
    have second (hpos : 1 < s.words) : Received (s.trace ++ [.stop]) s.stage1 := (h.stagedTwo hu hfail hpos).append _
    obtain ⟨ht, hrh, hst⟩ := old
    cases i with
    | softReset | setPeriodic | clearStatus | breakOp => exact ⟨ht, hrh, hst⟩
    | fetch | singleShot => exact ⟨.inr (first (hk ▸ Nat.two_pos)), .inr (second (hk ▸ Nat.one_lt_two)), hst⟩
    | readStatus => exact ⟨ht, hrh, .inr (first (hk ▸ Nat.one_pos))⟩
  · obtain ⟨calls, ht⟩ := hf.trace_append
    exact h.sensorValidated.of_sensor_eq (hf.sensor_eq hd) ht

/-- The rest of the data invariant says something only while a word is read, and of a success that has read one. -/
theorem dataInv_of_outside {s : State} (h : s.SensorValidated) (hw : s.upc.inWord = false)
    (hs : s.upc = .finalStop → s.fail = false → s.words = 0) : DataInv s := by
  obtain ⟨ht, hrh, hst⟩ := h
  refine ⟨ht, hrh, hst, fun hu => ?_, fun hu => ?_, fun hu => ?_, fun hu => ?_, fun hu hf hk => ?_, fun hu hf hk => ?_⟩
  · simp [hu, Upc.inWord] at hw
  · simp [hu, Upc.inWord] at hw
  · simp [hu, Upc.inWord] at hw
  · simp [hu] at hw
  · simp [hs hu hf] at hk
  · simp [hs hu hf] at hk

/-- The data invariant of a state in the midst of a word: what its latches hold, and the first word if this is the second. -/
theorem dataInv_of_inWord {s : State} (h : s.SensorValidated) (hw : s.upc.inWord = true)
    (h1 : s.upc = .rB1 → ∃ before, s.trace = before ++ [.read true s.b0])
    (h2 : s.upc = .rCrc → ∃ before, s.trace = before ++ [.read true s.b0, .read true s.b1])
    (h3 : s.upc = .check → ∃ before ack, s.trace = before ++ [.read true s.b0, .read true s.b1, .read ack s.c])
    (hs : s.widx = 1#1 → Received s.trace s.stage0) : DataInv s := by
  obtain ⟨ht, hrh, hst⟩ := h
  refine ⟨ht, hrh, hst, h1, h2, h3, fun _ => hs, fun hu => ?_, fun hu => ?_⟩
  · simp [hu, Upc.inWord] at hw
  · simp [hu, Upc.inWord] at hw

/-- The data invariant of a success that has read its words. -/
theorem dataInv_of_success {s : State} (h : s.SensorValidated) (hu : s.upc = .finalStop)
    (h0 : Received s.trace s.stage0) (h1 : 1 < s.words → Received s.trace s.stage1) : DataInv s := by
  obtain ⟨ht, hrh, hst⟩ := h
  refine ⟨ht, hrh, hst, fun hu' => ?_, fun hu' => ?_, fun hu' => ?_, fun hu' => ?_, fun _ _ _ => h0, fun _ _ => h1⟩
  all_goals simp [hu, Upc.inWord] at hu'

theorem Fires.keeps_dataInv {s s' : State} {i : Instr} (hf : Fires i s s') (hl : s.latched = some i) (hp : s.PhaseInv)
    (h : DataInv s) : DataInv s' := by
  have hsens := hf.keeps_sensorValidated hl h
  have hk : s.words = (operationOf i).words := State.words_of_latched hl
  unfold State.PhaseInv at hp
  cases hf with
  | waits =>
    obtain ⟨ht, hrh, hst, h1, h2, h3, hs, hs1, hs2⟩ := h
    exact ⟨ht, hrh, hst, h1, h2, h3, hs, hs1, hs2⟩
  | wStart | nacked | midStop | rStart | mismatch | endsFailed | endsDone => exact dataInv_of_outside hsens rfl nofun
  | acked call =>
    cases call with
    | wAddr | wMsb => exact dataInv_of_outside hsens rfl nofun
    | wLsb =>
      cases i with
      | softReset | setPeriodic | clearStatus | breakOp => exact dataInv_of_outside hsens rfl fun _ _ => hk
      | fetch | singleShot | readStatus => exact dataInv_of_outside hsens rfl nofun
    | rAddr hu =>
      rw [hu] at hp
      obtain ⟨-, hx, -⟩ := hp
      exact dataInv_of_inWord hsens rfl nofun nofun nofun fun hx' => by simp [hx] at hx'
  | rB0 hu =>
    exact dataInv_of_inWord hsens rfl (fun _ => ⟨_, rfl⟩) nofun nofun fun hx =>
      (h.firstStaged (by rw [hu]; rfl) hx).append _
  | rB1 hu =>
    obtain ⟨before, hb⟩ := h.firstByte hu
    exact dataInv_of_inWord hsens rfl nofun (fun _ => ⟨before, by simp [hb]⟩) nofun fun hx =>
      (h.firstStaged (by rw [hu]; rfl) hx).append _
  | rCrc hu =>
    obtain ⟨before, hb⟩ := h.twoBytes hu
    exact dataInv_of_inWord hsens rfl nofun nofun (fun _ => ⟨before, _, by simp only [hb, List.append_assoc]; rfl⟩) fun hx =>
      (h.firstStaged (by rw [hu]; rfl) hx).append _
  | firstWord hu hc =>
    obtain ⟨before, ack, hb⟩ := h.frame hu
    exact dataInv_of_inWord hsens rfl nofun nofun nofun fun _ => received_of_frame hb hc
  | onlyWord hu hc hx hk' =>
    obtain ⟨before, ack, hb⟩ := h.frame hu
    exact dataInv_of_success hsens rfl (received_of_frame hb hc) fun hk2 => absurd (hk ▸ hk' : s.words ≤ 1) (Nat.not_le_of_lt hk2)
  | secondWord hu hc hx =>
    obtain ⟨before, ack, hb⟩ := h.frame hu
    exact dataInv_of_success hsens rfl (h.firstStaged (by rw [hu]; rfl) hx) fun _ => received_of_frame hb hc

theorem dataInv_resetBlock (s : State) : DataInv (resetBlock s) :=
  dataInv_of_outside ⟨.inl rfl, .inl rfl, .inl rfl⟩ rfl nofun

/-- Settles O48: the latches follow the reads on the trace, a check stages a word that the trace shows received, and the closing
stop of a success commits staged words. -/
theorem sensorStateHoldsOnlyValidatedWords : Obligations.SensorStateHoldsOnlyValidatedWords := by
  intro s s' hinv h hs
  cases stepTo_of_step hs with
  | reset => exact dataInv_resetBlock s
  | fires _ hl hf => exact hf.keeps_dataInv hl hinv.phaseInv h
  | accepts | refuses => exact dataInv_of_outside h.sensorValidated rfl nofun
  | idles =>
    obtain ⟨ht, hrh, hst, h1, h2, h3, h0, hs1, hs2⟩ := h
    exact ⟨ht, hrh, hst, h1, h2, h3, h0, hs1, hs2⟩

/-- Settles O3: the reset state is what a reset makes of itself. -/
theorem resetMeetsTheInvariants : Obligations.ResetMeetsTheInvariants :=
  ⟨controlInv_resetBlock State.reset, traceInv_resetBlock State.reset, dataInv_resetBlock State.reset⟩

end Sys2Proof.Machine
end

section
/-! PROOFS. Along a run: the document's state machine (42_sequencer.md R92, 10_state.md R25), a call that never returns
(40_bus_primitives.md R82), the end of an operation whose calls return (70_reset_and_hazards.md R153), and two blocks that run the
same command (60_exceptions.md R133). -/

namespace Sys2Proof.Machine

/-- Every step lets one input pass. -/
theorem Fires.inputs {s s' : State} {i : Instr} (h : Fires i s s') : s'.inputs = s.inputs.tail := by
  cases h <;> rfl

theorem StepTo.inputs {s s' : State} (h : StepTo s s') : s'.inputs = s.inputs.tail := by
  cases h with
  | fires _ _ hf => exact hf.inputs
  | reset | accepts | refuses | idles => rfl

/-! ### The document's state -/

/-- Only a check has read all the bytes of a word. -/
theorem docState_mayFollow_self {s : State} (hu : s.upc ≠ .check) : s.docState.mayFollow s.docState = true := by
  unfold State.docState
  cases hx : s.upc with
  | check => exact absurd hx hu
  | rB0 | rB1 | rCrc => dsimp only; split <;> rfl
  | finalStop =>
    dsimp only
    split
    · rfl
    · split <;> rfl
  | idle | wStart | wAddr | wMsb | wLsb | midStop | rStart | rAddr | done | failed => rfl

/-- While a word is read, the document's state is that of the word before it. -/
theorem docState_of_reading {s : State} (hu : s.upc = .rB0 ∨ s.upc = .rB1 ∨ s.upc = .rCrc) :
    s.docState = if s.widx = 0#1 then .readAddressPhase else .checksumChecked := by
  obtain hu | hu | hu := hu <;> simp [State.docState, hu]

theorem docState_of_closing {s : State} (hu : s.upc = .finalStop) (hf : s.fail = false) :
    s.docState = if s.words = 0 then .commandBytesSent else .checksumChecked := by
  simp [State.docState, hu, hf]

theorem docState_of_success {s : State} (hu : s.upc = .finalStop) (hf : s.fail = false) (hk : s.words ≠ 0) :
    s.docState = .checksumChecked := by
  rw [docState_of_closing hu hf, if_neg hk]

theorem docState_of_failing {s : State} (hu : s.upc = .finalStop) (hf : s.fail = true) : s.docState = .failed := by
  simp [State.docState, hu, hf]

theorem mayFollow_of_eq {d d' e' : DocState} (hd : d' = e') (h : d.mayFollow e' = true) : d.mayFollow d' = true := hd ▸ h

/-- Each micro-step stays in the document's state or makes one of the source's transitions. -/
theorem Fires.docState_mayFollow {s s' : State} {i : Instr} (hf : Fires i s s') (hl : s.latched = some i)
    (h : s.PhaseInv) : s.docState.mayFollow s'.docState = true := by
  have hk : s.words = (operationOf i).words := State.words_of_latched hl
  unfold State.PhaseInv at h
  cases hf with
  | waits hq => exact docState_mayFollow_self (fun hu => hq (by simp [State.busRequest, hu]))
  | wStart hu | midStop hu | rStart hu => simp [State.docState, hu, DocState.mayFollow]
  | acked call =>
    cases call with
    | wAddr hu | wMsb hu => simp [State.docState, hu, DocState.mayFollow]
    | wLsb hu =>
      rw [hu] at h
      obtain ⟨hfail, -⟩ := h
      exact mayFollow_of_eq (docState_afterWritePhase rfl hk hfail) (by simp [State.docState, hu, DocState.mayFollow])
    | rAddr hu =>
      rw [hu] at h
      obtain ⟨-, hx, -⟩ := h
      simp [State.docState, hu, hx, DocState.mayFollow]
  | nacked call =>
    refine mayFollow_of_eq (docState_of_failing rfl rfl) ?_
    cases call with
    | wAddr hu | wMsb hu | wLsb hu | rAddr hu => simp [State.docState, hu, DocState.mayFollow]
  | rB0 hu =>
    rw [docState_of_reading (.inl hu), docState_of_reading (.inr (.inl rfl))]
    dsimp only
    split <;> rfl
  | rB1 hu =>
    rw [docState_of_reading (.inr (.inl hu)), docState_of_reading (.inr (.inr rfl))]
    dsimp only
    split <;> rfl
  | rCrc hu =>
    rw [docState_of_reading (.inr (.inr hu))]
    split <;> rfl
  | mismatch hu =>
    exact mayFollow_of_eq (docState_of_failing rfl rfl) (by simp [State.docState, hu, DocState.mayFollow])
  | firstWord hu => simp [State.docState, hu, DocState.mayFollow]
  | onlyWord hu | secondWord hu =>
    rw [hu] at h
    obtain ⟨hfail, hlt⟩ := h
    refine mayFollow_of_eq (docState_of_success rfl hfail (Nat.ne_zero_of_lt hlt)) ?_
    simp [State.docState, hu, DocState.mayFollow]
  | endsFailed hu hfail =>
    rw [docState_of_failing hu hfail]
    rfl
  | endsDone hu hfail =>
    rw [docState_of_closing hu hfail]
    split <;> rfl

/-- Settles O50: beside the micro-steps, an accept leaves one of the three states at rest. -/
theorem documentStateFollowsItsTransitions : Obligations.DocumentStateFollowsItsTransitions := by
  intro s s' h hr hs
  cases stepTo_of_step hs with
  | reset hr' => simp [hr] at hr'
  | fires _ hl hf => exact hf.docState_mayFollow hl h.phaseInv
  | accepts _ hb | refuses _ hb =>
    cases hu : s.upc <;> simp_all [State.busy, Upc.busy, State.docState, DocState.mayFollow]
  | idles _ hb => exact docState_mayFollow_self (fun hu => by simp [State.busy, Upc.busy, hu] at hb)

/-! ### A call that never returns -/

/-- A request on the bus port belongs to a running operation. -/
theorem State.busy_of_busRequest {s : State} (hq : s.busRequest ≠ none) : s.busy = true := by
  cases hb : s.busy with
  | true => rfl
  | false => exact absurd (State.busRequest_of_not_busy hb) hq

/-- One step of waiting. -/
theorem step_of_unanswered {s : State} (h : ControlInv s) (hq : s.busRequest ≠ none) (hr : s.input.rst = false)
    (ha : s.input.busRsp = false) : step s = .next { s with inputs := s.inputs.tail } := by
  obtain ⟨i, hl⟩ := h.latched_of_busy (State.busy_of_busRequest hq)
  exact (StepTo.fires hr hl (.waits hq ha)).step_eq

/-- What holds of all inputs and of the quiet input past their end holds of the next one. -/
theorem State.input_of_forall {P : Input → Prop} {s : State} (h : ∀ j ∈ s.inputs, P j) (hquiet : P .quiet) : P s.input := by
  cases hs : s.inputs with
  | nil => rwa [State.input_nil s hs]
  | cons j rest => rw [State.input_cons s j rest hs]; exact h j (by simp [hs])

/-- Settles O56, by induction on the number of steps. -/
theorem hungCallHoldsTheBlock : Obligations.HungCallHoldsTheBlock := by
  intro s n
  induction n generalizing s with
  | zero => intro _ _ _; rfl
  | succ n ih =>
    intro h hq hin
    obtain ⟨ha, hr⟩ := State.input_of_forall hin ⟨rfl, rfl⟩
    have hs := step_of_unanswered h hq hr ha
    rw [runFor_succ_of_next n hs, ih _ (controlInvariantIsKept _ _ h hs) hq fun j hj => hin j (List.mem_of_mem_tail hj)]
    simp [List.drop_tail]

/-! ### The end of an operation -/

/-- A bound on the answered steps to the end of the operation: what follows a first word is counted in full. -/
def State.stepsLeft (s : State) : Nat :=
  match s.upc with
  | .idle => 0
  | .wStart => 16
  | .wAddr => 15
  | .wMsb => 14
  | .wLsb => 13
  | .midStop => 12
  | .rStart => 11
  | .rAddr => 10
  | .rB0 => if s.widx = 0#1 then 9 else 5
  | .rB1 => if s.widx = 0#1 then 8 else 4
  | .rCrc => if s.widx = 0#1 then 7 else 3
  | .check => if s.widx = 0#1 then 6 else 2
  | .finalStop => 1
  | .done => 0
  | .failed => 0

theorem State.stepsLeft_le (s : State) : s.stepsLeft ≤ 16 := by
  unfold State.stepsLeft
  split
  case h_9 | h_10 | h_11 | h_12 => split <;> decide
  all_goals decide

theorem afterWritePhase_cases (o : Operation) :
    afterWritePhase o = .finalStop ∨ afterWritePhase o = .midStop ∨ afterWritePhase o = .rStart := by
  unfold afterWritePhase
  split
  · exact .inl rfl
  · split
    · exact .inr (.inl rfl)
    · exact .inr (.inr rfl)

/-- An answered step of a running operation ends it or leaves fewer steps. -/
theorem Fires.stepsLeft_lt {s s' : State} {i : Instr} (hf : Fires i s s') (hr : s.input.busRsp = true) :
    s'.operationOver = true ∨ (s'.busy = true ∧ s'.stepsLeft < s.stepsLeft) := by
  cases hf with
  | waits _ hr' => simp [hr] at hr'
  | endsFailed | endsDone => exact .inl rfl
  | wStart hu | midStop hu | rStart hu => exact .inr ⟨rfl, by simp [State.stepsLeft, hu]⟩
  | acked call =>
    right
    cases call with
    | wAddr hu | wMsb hu => exact ⟨rfl, by simp [State.stepsLeft, hu]⟩
    | wLsb hu =>
      obtain h | h | h := afterWritePhase_cases (operationOf i) <;>
        simp [State.busy, Upc.busy, State.stepsLeft, h, hu]
    | rAddr hu => exact ⟨rfl, by simp only [State.stepsLeft, hu]; split <;> decide⟩
  | nacked call => cases call with
    | wAddr hu | wMsb hu | wLsb hu | rAddr hu => exact .inr ⟨rfl, by simp [State.stepsLeft, hu]⟩
  | firstWord hu _ hx => exact .inr ⟨rfl, by simp [State.stepsLeft, hu, hx]⟩
  | rB0 hu | rB1 hu | rCrc hu | mismatch hu | onlyWord hu | secondWord hu =>
    exact .inr ⟨rfl, by simp only [State.stepsLeft, hu]; split <;> decide⟩

/-- An operation whose calls return is over within its steps left. -/
theorem operationOver_within {s : State} (k : Nat) (h : ControlInv s) (hb : s.busy = true) (hk : s.stepsLeft ≤ k)
    (hlen : k ≤ s.inputs.length) (hin : ∀ j ∈ s.inputs.take k, j.busRsp = true ∧ j.rst = false) :
    ∃ n s', n ≤ k ∧ runFor n s = .next s' ∧ s'.operationOver = true := by
  induction k generalizing s with
  | zero =>
    have : s.stepsLeft ≠ 0 := by
      unfold State.stepsLeft
      cases hu : s.upc <;> simp_all [State.busy, Upc.busy] <;> split <;> decide
    omega
  | succ k ih =>
    obtain ⟨j, rest, hs⟩ : ∃ j rest, s.inputs = j :: rest := List.exists_cons_of_length_pos (by omega)
    obtain ⟨ha, hr⟩ := hin j (by simp [hs])
    obtain ⟨i, hl⟩ := h.latched_of_busy hb
    obtain ⟨s₁, hf⟩ := exists_fires i hb
    have hi : s.input = j := State.input_cons s j rest hs
    have h₁ : step s = .next s₁ := (StepTo.fires (by rw [hi, hr]) hl hf).step_eq
    have hin₁ : s₁.inputs = rest := by rw [hf.inputs, hs]; rfl
    obtain hover | ⟨hb₁, hlt⟩ := hf.stepsLeft_lt (by rw [hi, ha])
    · exact ⟨1, s₁, by omega, by rw [runFor_succ_of_next 0 h₁, runFor_zero], hover⟩
    · obtain ⟨n, s', hn, hrun, hover⟩ := ih (controlInvariantIsKept _ _ h h₁) hb₁ (by omega)
        (by rw [hin₁]; simp [hs] at hlen; omega) (by
          rw [hin₁]
          intro x hx
          exact hin x (by simp [hs, hx]))
      exact ⟨n + 1, s', by omega, by rw [runFor_succ_of_next n h₁, hrun], hover⟩

/-- Settles O55: sixteen bounds the steps left from anywhere. -/
theorem everyOperationEndsIfCallsReturn : Obligations.EveryOperationEndsIfCallsReturn :=
  fun s h hb hlen hin => operationOver_within 16 h hb s.stepsLeft_le hlen hin

/-! ### Two blocks that run the same command -/

/-- The registers that steer the running operation of `s`, with everything else as in `l`: the Sensor State, the bytes and words
received, and the trace. -/
def State.over (s l : State) : State :=
  { l with
    upc := s.upc, opR := s.opR, rateR := s.rateR, repR := s.repR, codeR := s.codeR, fail := s.fail, widx := s.widx,
    rom := s.rom, inputs := s.inputs }

/-- `l` holds the bytes of the present word that `s` has read so far. -/
structure SameBytes (s l : State) : Prop where
  b0 : s.upc ∈ [.rB1, .rCrc, .check] → l.b0 = s.b0
  b1 : s.upc ∈ [.rCrc, .check] → l.b1 = s.b1
  c : s.upc ∈ [.check] → l.c = s.c

/-- In a check both hold the same frame. -/
theorem SameBytes.frame {s l : State} (h : SameBytes s l) (hu : s.upc = .check) : rawWord l.b0 l.b1 = rawWord s.b0 s.b1 := by
  rw [h.b0 (by simp [hu]), h.b1 (by simp [hu])]

/-- Outside the bytes of a word there is nothing to agree on. -/
theorem sameBytes_of_not_reading {s l : State} (hu : s.upc ∉ [.rB1, .rCrc, .check]) : SameBytes s l := by
  simp only [List.mem_cons, List.not_mem_nil, or_false, not_or] at hu
  obtain ⟨h1, h2, h3⟩ := hu
  exact ⟨by simp [h1, h2, h3], by simp [h2, h3], by simp [h3]⟩

theorem AckCall.over {o : Operation} {s : State} {entry : Bool → BusCall} {after : Upc} (h : AckCall o s entry after)
    (l : State) : AckCall o (s.over l) entry after := by
  cases h with
  | wAddr hu => exact .wAddr hu
  | wMsb hu => exact .wMsb hu
  | wLsb hu => exact .wLsb hu
  | rAddr hu => exact .rAddr hu

/-- A call that returns an acknowledge reads no byte, and the byte reads begin only after the last of them. -/
theorem AckCall.after_not_reading {o : Operation} {s : State} {entry : Bool → BusCall} {after : Upc}
    (h : AckCall o s entry after) : after ∉ [.rB1, .rCrc, .check] := by
  cases h with
  | wAddr | wMsb | rAddr => decide
  | wLsb => obtain h | h | h := afterWritePhase_cases o <;> rw [h] <;> decide

/-- A micro-step does the same, with the same calls, over whatever other operations have left behind. -/
theorem Fires.over {i : Instr} {s s' l : State} (h : Fires i s s') (hl : SameBytes s l) :
    ∃ l' calls, Fires i (s.over l) (s'.over l') ∧ SameBytes s' l' ∧ s'.trace = s.trace ++ calls ∧
      l'.trace = l.trace ++ calls := by
  cases h with
  | waits hq hr =>
    obtain ⟨h0, h1, hc⟩ := hl
    exact ⟨l, [], .waits hq hr, ⟨h0, h1, hc⟩, (List.append_nil _).symm, (List.append_nil _).symm⟩
  | wStart hu hr =>
    exact ⟨{ l with trace := l.trace ++ [.start] }, _, .wStart hu hr, sameBytes_of_not_reading (by simp), rfl, rfl⟩
  | acked call hr ha =>
    exact ⟨{ l with trace := l.trace ++ [_] }, _, .acked (call.over l) hr ha,
      sameBytes_of_not_reading call.after_not_reading, rfl, rfl⟩
  | nacked call hr ha =>
    exact ⟨{ l with trace := l.trace ++ [_] }, _, .nacked (call.over l) hr ha, sameBytes_of_not_reading (by simp), rfl, rfl⟩
  | midStop hu hr =>
    exact ⟨{ l with trace := l.trace ++ [.stop] }, _, .midStop hu hr, sameBytes_of_not_reading (by simp), rfl, rfl⟩
  | rStart hu hr =>
    exact ⟨{ l with trace := l.trace ++ [.start] }, _, .rStart hu hr, sameBytes_of_not_reading (by simp), rfl, rfl⟩
  | rB0 hu hr =>
    exact ⟨{ l with b0 := s.input.busRdata, trace := l.trace ++ [.read true s.input.busRdata] }, _, .rB0 hu hr,
      ⟨fun _ => rfl, by simp, by simp⟩, rfl, rfl⟩
  | rB1 hu hr =>
    obtain ⟨h0, -, -⟩ := hl
    exact ⟨{ l with b1 := s.input.busRdata, trace := l.trace ++ [.read true s.input.busRdata] }, _, .rB1 hu hr,
      ⟨fun _ => h0 (by simp [hu]), fun _ => rfl, by simp⟩, rfl, rfl⟩
  | rCrc hu hr =>
    obtain ⟨h0, h1, -⟩ := hl
    exact ⟨{ l with c := s.input.busRdata, trace := l.trace ++ [.read (s.moreFollow _) s.input.busRdata] }, _, .rCrc hu hr,
      ⟨fun _ => h0 (by simp [hu]), fun _ => h1 (by simp [hu]), fun _ => rfl⟩, rfl, rfl⟩
  | mismatch hu hc =>
    rw [← hl.frame hu, ← hl.c (by simp [hu])] at hc
    exact ⟨{ l with crc := crc8 (rawWord l.b0 l.b1) }, [], .mismatch hu hc, sameBytes_of_not_reading (by simp),
      (List.append_nil _).symm, (List.append_nil _).symm⟩
  | firstWord hu hc hx hk =>
    rw [← hl.frame hu, ← hl.c (by simp [hu])] at hc
    exact ⟨{ l with crc := l.c, stage0 := rawWord l.b0 l.b1 }, [], .firstWord hu hc hx hk,
      sameBytes_of_not_reading (by simp), (List.append_nil _).symm, (List.append_nil _).symm⟩
  | onlyWord hu hc hx hk =>
    rw [← hl.frame hu, ← hl.c (by simp [hu])] at hc
    exact ⟨{ l with crc := l.c, stage0 := rawWord l.b0 l.b1 }, [], .onlyWord hu hc hx hk,
      sameBytes_of_not_reading (by simp), (List.append_nil _).symm, (List.append_nil _).symm⟩
  | secondWord hu hc hx =>
    rw [← hl.frame hu, ← hl.c (by simp [hu])] at hc
    exact ⟨{ l with crc := l.c, stage1 := rawWord l.b0 l.b1 }, [], .secondWord hu hc hx,
      sameBytes_of_not_reading (by simp), (List.append_nil _).symm, (List.append_nil _).symm⟩
  | endsFailed hu hf hr =>
    exact ⟨{ l with trace := l.trace ++ [.stop] }, _, .endsFailed hu hf hr, sameBytes_of_not_reading (by simp), rfl, rfl⟩
  | endsDone hu hf hr =>
    refine ⟨{ commitWords (operationOf i).commit l with trace := l.trace ++ [.stop] }, _, ?_,
      sameBytes_of_not_reading (by simp), rfl, rfl⟩
    have h := Fires.endsDone (i := i) (s := s.over l) hu hf hr
    cases i <;> exact h

/-- Two blocks in the same micro-state, with the same inputs to come; while an operation runs, what steers it is the same. -/
structure Twins (s₁ s₂ : State) : Prop where
  upc : s₂.upc = s₁.upc
  rom : s₂.rom = s₁.rom
  inputs : s₂.inputs = s₁.inputs
  running : s₁.busy = true → s₂ = s₁.over s₂ ∧ SameBytes s₁ s₂

/-- The next states of the two blocks, related again, and the same calls made. -/
def TwinSteps (s₁ s₂ : State) : Prop :=
  ∃ s₁' s₂' calls, StepTo s₁ s₁' ∧ StepTo s₂ s₂' ∧ Twins s₁' s₂' ∧ s₁'.trace = s₁.trace ++ calls ∧
    s₂'.trace = s₂.trace ++ calls

section
variable {s₁ s₂ : State}

theorem State.input_eq_of_inputs (h : s₂.inputs = s₁.inputs) : s₂.input = s₁.input := by
  rw [State.input, State.input, h]

/-- An accept depends on the offer and the tables alone. -/
theorem twinSteps_of_offer (hb₁ : s₁.busy = false) (hb₂ : s₂.busy = false) (hrom : s₂.rom = s₁.rom)
    (hin : s₂.inputs = s₁.inputs) (hr : s₁.input.rst = false) (hv : s₁.input.cmdValid = true) : TwinSteps s₁ s₂ := by
  have hi := State.input_eq_of_inputs hin
  have none_eq (t : List BusCall) : t = t ++ [] := (List.append_nil t).symm
  cases hw : wireCode s₁.rom (cmdOp s₁.input.cmd) (cmdRate s₁.input.cmd) (cmdRep s₁.input.cmd) with
  | none =>
    refine ⟨_, _, [], .refuses hr hb₁ hv hw, .refuses (hi ▸ hr) hb₂ (hi ▸ hv) (by rw [hi, hrom, hw]), ?_, none_eq _, none_eq _⟩
    exact ⟨rfl, hrom, congrArg List.tail hin, nofun⟩
  | some code =>
    refine ⟨_, _, [], .accepts hr hb₁ hv hw, .accepts (hi ▸ hr) hb₂ (hi ▸ hv) (by rw [hi, hrom, hw]), ?_, none_eq _, none_eq _⟩
    refine ⟨rfl, hrom, congrArg List.tail hin, fun _ => ⟨?_, sameBytes_of_not_reading (by simp)⟩⟩
    simp [State.over, hi, hrom, hin]

theorem Twins.step (h : Twins s₁ s₂) (hinv : ControlInv s₁) (hr : s₁.input.rst = false) : TwinSteps s₁ s₂ := by
  obtain ⟨hupc, hrom, hin, hrun⟩ := h
  have hbusy : s₂.busy = s₁.busy := congrArg Upc.busy hupc
  have hi := State.input_eq_of_inputs hin
  cases hb : s₁.busy with
  | true =>
    obtain ⟨heq, hbytes⟩ := hrun hb
    obtain ⟨i, hl⟩ := hinv.latched_of_busy hb
    obtain ⟨s₁', hf⟩ := exists_fires i hb
    obtain ⟨l, calls, hf₂, hbytes', ht₁, ht₂⟩ := hf.over hbytes
    rw [← heq] at hf₂
    have hl₂ : s₂.latched = some i := by rw [heq]; exact hl
    exact ⟨s₁', s₁'.over l, calls, .fires hr hl hf, .fires (hi ▸ hr) hl₂ hf₂,
      ⟨rfl, rfl, rfl, fun _ => ⟨rfl, ⟨hbytes'.b0, hbytes'.b1, hbytes'.c⟩⟩⟩, ht₁, ht₂⟩
  | false =>
    cases hv : s₁.input.cmdValid with
    | true => exact twinSteps_of_offer hb (hbusy.trans hb) hrom hin hr hv
    | false =>
      refine ⟨_, _, [], .idles hr hb hv, .idles (hi ▸ hr) (hbusy.trans hb) (hi ▸ hv), ?_,
        (List.append_nil _).symm, (List.append_nil _).symm⟩
      exact ⟨hupc, hrom, congrArg List.tail hin, fun hb' => by cases hb.symm.trans hb'⟩

/-- Twins stay twins, making the same calls, for any number of steps without reset. -/
theorem Twins.runFor (n : Nat) (h : Twins s₁ s₂) (hinv : ControlInv s₁) (hin : ∀ j ∈ s₁.inputs, j.rst = false) :
    ∃ s₁' s₂' calls, runFor n s₁ = .next s₁' ∧ runFor n s₂ = .next s₂' ∧ s₁'.upc = s₂'.upc ∧
      s₁'.trace = s₁.trace ++ calls ∧ s₂'.trace = s₂.trace ++ calls := by
  induction n generalizing s₁ s₂ with
  | zero => exact ⟨s₁, s₂, [], rfl, rfl, h.upc.symm, by simp, by simp⟩
  | succ n ih =>
    obtain ⟨t₁, t₂, calls, hs₁, hs₂, ht, hc₁, hc₂⟩ := h.step hinv (State.input_of_forall hin rfl)
    obtain ⟨s₁', s₂', calls', hr₁, hr₂, hu, hc₁', hc₂'⟩ := ih ht (controlInvariantIsKept _ _ hinv hs₁.step_eq)
      fun j hj => hin j (List.mem_of_mem_tail (hs₁.inputs ▸ hj))
    refine ⟨s₁', s₂', calls ++ calls', ?_, ?_, hu, by simp [hc₁', hc₁], by simp [hc₂', hc₂]⟩
    · rw [runFor_succ_of_next n hs₁.step_eq, hr₁]
    · rw [runFor_succ_of_next n hs₂.step_eq, hr₂]

end

/-- What an offer leads to meets the control invariant, whatever was in the registers before. -/
theorem controlInv_of_offer {s s' : State} (h : StepTo s s') (hb : s.busy = false) (hv : s.input.cmdValid = true) :
    ControlInv s' := by
  cases h with
  | reset => exact controlInv_resetBlock s
  | fires _ _ hf => exact absurd hf.busy (by simp [hb])
  | accepts _ _ _ hw => exact controlInv_of_phaseInv (fun _ => hw) ⟨rfl, rfl⟩
  | refuses => exact controlInv_of_phaseInv (fun hb' => by cases hb') trivial
  | idles _ _ hv' => simp [hv] at hv'

/-- Settles O54: the offer makes the two blocks twins, whatever else they hold. -/
theorem earlierOperationsDoNotChangeALaterOne : Obligations.EarlierOperationsDoNotChangeALaterOne := by
  intro s₁ s₂ offer inputs n hb₁ hb₂ hrom hin₁ hin₂ hr hv hinputs
  have hi : s₁.input = offer := State.input_cons s₁ offer inputs hin₁
  rw [← hi] at hr hv
  obtain ⟨t₁, t₂, calls, hs₁, hs₂, ht, hc₁, hc₂⟩ := twinSteps_of_offer hb₁ hb₂ hrom.symm (hin₂.trans hin₁.symm) hr hv
  obtain ⟨s₁', s₂', calls', hr₁, hr₂, hu, hc₁', hc₂'⟩ := ht.runFor n (controlInv_of_offer hs₁ hb₁ hv)
    (by rw [hs₁.inputs, hin₁]; exact hinputs)
  refine ⟨s₁', s₂', calls ++ calls', ?_, ?_, hu, by simp [hc₁', hc₁], by simp [hc₂', hc₂]⟩
  · rw [runFor_succ_of_next n hs₁.step_eq, hr₁]
  · rw [runFor_succ_of_next n hs₂.step_eq, hr₂]

end Sys2Proof.Machine
end

section
/-! PROOFS. What the sequential procedure `transact` (43_operations.md R114) can end with: the shapes of its trace (42_sequencer.md
R111) and its starts and stops (R113). -/

namespace Sys2Proof.Machine

open Sys2Proof.Statements

/-! ### Each part of the procedure, when it ends -/

theorem Progress.call_eq_some_iff {p p' : Progress} {entry : Input → BusCall} {j : Input} :
    p.call entry = some (j, p') ↔ awaitReply p.rest = some (j, p'.rest) ∧ p'.calls = p.calls ++ [entry j] := by
  unfold Progress.call
  cases ha : awaitReply p.rest with
  | none => simp
  | some x =>
    obtain ⟨j', rest⟩ := x
    obtain ⟨rest', calls'⟩ := p'
    simp only [Option.some.injEq, Prod.mk.injEq, Progress.mk.injEq]
    constructor
    · rintro ⟨rfl, rfl, rfl⟩; exact ⟨⟨rfl, rfl⟩, rfl⟩
    · rintro ⟨⟨rfl, rfl⟩, rfl⟩; exact ⟨rfl, rfl, rfl⟩

/-- A procedure that goes on after a call, and ends, has made the call. -/
theorem Progress.exists_call {α : Type} {p : Progress} {entry : Input → BusCall} {go : Input → Progress → Option α} {r : α}
    (h : (match p.call entry with
      | none => none
      | some (j, p') => go j p') = some r) :
    ∃ j p', p.call entry = some (j, p') ∧ go j p' = some r := by
  cases hc : p.call entry with
  | none => rw [hc] at h; cases h
  | some x => rw [hc] at h; exact ⟨x.1, x.2, rfl, h⟩

theorem closeTransaction_eq_some {ok : Bool} {words : List Word} {p : Progress} {r : TransactResult}
    (h : closeTransaction ok words p = some r) :
    r.ok = ok ∧ r.words = (if ok then words else []) ∧ ∃ j, p.call (fun _ => .stop) = some (j, ⟨r.rest, r.calls⟩) := by
  obtain ⟨j, p', hc, h⟩ := Progress.exists_call h
  cases h
  exact ⟨rfl, rfl, j, hc⟩

theorem readFrame_eq_some {more : Bool} {p p' : Progress} {b0 b1 c : Byte} (h : readFrame more p = some (b0, b1, c, p')) :
    ∃ j0 p0 j1 p1 j2, p.call (fun i => .read true i.busRdata) = some (j0, p0) ∧
      p0.call (fun i => .read true i.busRdata) = some (j1, p1) ∧ p1.call (fun i => .read more i.busRdata) = some (j2, p') ∧
      b0 = j0.busRdata ∧ b1 = j1.busRdata ∧ c = j2.busRdata := by
  obtain ⟨j0, p0, h0, h⟩ := Progress.exists_call h
  obtain ⟨j1, p1, h1, h⟩ := Progress.exists_call h
  obtain ⟨j2, p2, h2, h⟩ := Progress.exists_call h
  cases h
  exact ⟨j0, p0, j1, p1, j2, h0, h1, h2, rfl, rfl, rfl⟩

theorem readWords_succ_eq_some {left : Nat} {words : List Word} {p : Progress} {r : TransactResult}
    (h : readWords (left + 1) words p = some r) :
    ∃ b0 b1 c p', readFrame (decide (0 < left)) p = some (b0, b1, c, p') ∧
      ((frameValid b0 b1 c = true ∧ readWords left (words ++ [rawWord b0 b1]) p'.pass = some r) ∨
        (frameValid b0 b1 c = false ∧ closeTransaction false [] p'.pass = some r)) := by
  rw [readWords] at h
  cases hf : readFrame (decide (0 < left)) p with
  | none => rw [hf] at h; cases h
  | some x =>
    obtain ⟨b0, b1, c, p'⟩ := x
    rw [hf] at h
    refine ⟨b0, b1, c, p', rfl, ?_⟩
    cases hv : frameValid b0 b1 c
    · exact .inr ⟨rfl, by simpa [hv] using h⟩
    · exact .inl ⟨rfl, by simpa [hv] using h⟩

theorem readPhase_eq_some {words : Nat} {p : Progress} {r : TransactResult} (h : readPhase words p = some r) :
    ∃ j0 p0 j1 p1, p.call (fun _ => .start) = some (j0, p0) ∧
      p0.call (fun i => .addressRead Config.deviceAddr i.busAckIn) = some (j1, p1) ∧
      ((j1.busAckIn = true ∧ readWords words [] p1 = some r) ∨
        (j1.busAckIn = false ∧ closeTransaction false [] p1 = some r)) := by
  obtain ⟨j0, p0, h0, h⟩ := Progress.exists_call h
  obtain ⟨j1, p1, h1, h⟩ := Progress.exists_call h
  refine ⟨j0, p0, j1, p1, h0, h1, ?_⟩
  cases ha : j1.busAckIn
  · exact .inr ⟨rfl, by simpa [ha] using h⟩
  · exact .inl ⟨rfl, by simpa [ha] using h⟩

theorem afterWrite_eq_some {words : Nat} {midStop : Bool} {p : Progress} {r : TransactResult}
    (h : afterWrite words midStop p = some r) :
    (words = 0 ∧ closeTransaction true [] p = some r) ∨
    (0 < words ∧ midStop = false ∧ readPhase words p = some r) ∨
    (0 < words ∧ midStop = true ∧ ∃ j p', p.call (fun _ => .stop) = some (j, p') ∧ readPhase words p' = some r) := by
  unfold afterWrite at h
  split at h
  next h0 => exact .inl ⟨h0, h⟩
  next h0 =>
    split at h
    next hm =>
      obtain ⟨j, p', hc, h⟩ := Progress.exists_call h
      exact .inr (.inr ⟨Nat.pos_of_ne_zero h0, hm, j, p', hc, h⟩)
    next hm => exact .inr (.inl ⟨Nat.pos_of_ne_zero h0, by simpa using hm, h⟩)

theorem transact_eq_some {code : Word} {words : Nat} {midStop : Bool} {inputs : List Input} {r : TransactResult}
    (h : transact code words midStop inputs = some r) :
    ∃ j0 p0 j1 p1, (Progress.mk inputs []).call (fun _ => .start) = some (j0, p0) ∧
      p0.call (fun i => .addressWrite Config.deviceAddr i.busAckIn) = some (j1, p1) ∧
      ((j1.busAckIn = false ∧ closeTransaction false [] p1 = some r) ∨
        (j1.busAckIn = true ∧ ∃ j2 p2, p1.call (fun i => .data code.high i.busAckIn) = some (j2, p2) ∧
          ((j2.busAckIn = false ∧ closeTransaction false [] p2 = some r) ∨
            (j2.busAckIn = true ∧ ∃ j3 p3, p2.call (fun i => .data code.low i.busAckIn) = some (j3, p3) ∧
              ((j3.busAckIn = false ∧ closeTransaction false [] p3 = some r) ∨
                (j3.busAckIn = true ∧ afterWrite words midStop p3 = some r)))))) := by
  obtain ⟨j0, p0, h0, h⟩ := Progress.exists_call h
  obtain ⟨j1, p1, h1, h⟩ := Progress.exists_call h
  refine ⟨j0, p0, j1, p1, h0, h1, ?_⟩
  split at h
  next a1 =>
    obtain ⟨j2, p2, h2, h⟩ := Progress.exists_call h
    refine .inr ⟨a1, j2, p2, h2, ?_⟩
    split at h
    next a2 =>
      obtain ⟨j3, p3, h3, h⟩ := Progress.exists_call h
      refine .inr ⟨a2, j3, p3, h3, ?_⟩
      split at h
      next a3 => exact .inr ⟨a3, h⟩
      next a3 => exact .inl ⟨by simpa using a3, h⟩
    next a2 => exact .inl ⟨by simpa using a2, h⟩
  next a1 => exact .inl ⟨by simpa using a1, h⟩

/-! ### The calls that it has made -/

theorem Progress.calls_of_call {p p' : Progress} {entry : Input → BusCall} {j : Input} (h : p.call entry = some (j, p')) :
    p'.calls = p.calls ++ [entry j] := by
  obtain ⟨-, hc⟩ := Progress.call_eq_some_iff.mp h
  exact hc

theorem calls_of_close {ok : Bool} {words : List Word} {p : Progress} {r : TransactResult}
    (h : closeTransaction ok words p = some r) :
    r.ok = ok ∧ r.words = (if ok then words else []) ∧ r.calls = p.calls ++ [.stop] := by
  obtain ⟨hok, hw, j, hc⟩ := closeTransaction_eq_some h
  exact ⟨hok, hw, Progress.calls_of_call hc⟩

/-- A failure commits nothing. -/
theorem calls_of_abort {p : Progress} {r : TransactResult} (h : closeTransaction false [] p = some r) :
    r.ok = false ∧ r.words = [] ∧ r.calls = p.calls ++ [.stop] := calls_of_close h

theorem calls_of_readFrame {more : Bool} {p p' : Progress} {b0 b1 c : Byte} (h : readFrame more p = some (b0, b1, c, p')) :
    p'.calls = p.calls ++ frameCalls b0 b1 c more := by
  obtain ⟨j0, p0, j1, p1, j2, h0, h1, h2, rfl, rfl, rfl⟩ := readFrame_eq_some h
  simp [Progress.calls_of_call h2, Progress.calls_of_call h1, Progress.calls_of_call h0, frameCalls]

theorem Progress.pass_calls (p : Progress) : p.pass.calls = p.calls := rfl

/-- The read phase opens with a start and the address, and reads only after an acknowledge. -/
theorem calls_of_readPhase {words : Nat} {p : Progress} {r : TransactResult} (h : readPhase words p = some r) :
    (r.ok = false ∧ r.words = [] ∧ r.calls = p.calls ++ readOpening false false ++ [.stop]) ∨
      ∃ p', p'.calls = p.calls ++ readOpening false true ∧ readWords words [] p' = some r := by
  obtain ⟨j0, p0, j1, p1, h0, h1, ⟨ha, h⟩ | ⟨ha, h⟩⟩ := readPhase_eq_some h
  · refine .inr ⟨p1, ?_, h⟩
    simp [Progress.calls_of_call h1, Progress.calls_of_call h0, ha, readOpening, Config.deviceAddr]
  · obtain ⟨hok, hw, hc⟩ := calls_of_abort h
    refine .inl ⟨hok, hw, ?_⟩
    simp [hc, Progress.calls_of_call h1, Progress.calls_of_call h0, ha, readOpening, Config.deviceAddr]

/-- After the write phase: nothing more, or the read phase, behind an intermediate stop or not. -/
theorem calls_of_afterWrite {words : Nat} {midStop : Bool} {p : Progress} {r : TransactResult}
    (h : afterWrite words midStop p = some r) :
    (words = 0 ∧ r.ok = true ∧ r.words = [] ∧ r.calls = p.calls ++ [.stop]) ∨
    (0 < words ∧ r.ok = false ∧ r.words = [] ∧ r.calls = p.calls ++ readOpening midStop false ++ [.stop]) ∨
    (0 < words ∧ ∃ p', p'.calls = p.calls ++ readOpening midStop true ∧ readWords words [] p' = some r) := by
  obtain ⟨h0, hclose⟩ | ⟨hpos, rfl, hread⟩ | ⟨hpos, rfl, j, p₁, hs, hread⟩ := afterWrite_eq_some h
  · exact .inl ⟨h0, calls_of_close hclose⟩
  · exact .inr ((calls_of_readPhase hread).imp (fun hx => ⟨hpos, hx⟩) fun hx => ⟨hpos, hx⟩)
  · have hc : p₁.calls = p.calls ++ [.stop] := Progress.calls_of_call hs
    obtain ⟨hok, hw, hr⟩ | ⟨p', hp', hr⟩ := calls_of_readPhase hread
    · exact .inr (.inl ⟨hpos, hok, hw, by simp [hr, hc, readOpening]⟩)
    · exact .inr (.inr ⟨hpos, p', by simp [hp', hc, readOpening], hr⟩)

/-- The write phase fails at one of its three acknowledges, or is completed. -/
theorem calls_of_transact {code : Word} {words : Nat} {midStop : Bool} {inputs : List Input} {r : TransactResult}
    (h : transact code words midStop inputs = some r) :
    (r.ok = false ∧ r.words = [] ∧
      (r.calls = [.start, .addressWrite 0x44#7 false, .stop] ∨
        r.calls = [.start, .addressWrite 0x44#7 true, .data code.high false, .stop] ∨
        r.calls = [.start, .addressWrite 0x44#7 true, .data code.high true, .data code.low false, .stop])) ∨
    ∃ p, p.calls = writePhase code ∧ afterWrite words midStop p = some r := by
  obtain ⟨j0, p0, j1, p1, h0, h1, h⟩ := transact_eq_some h
  have c0 : p0.calls = [.start] := Progress.calls_of_call h0
  have c1 := Progress.calls_of_call h1
  obtain ⟨a1, h⟩ | ⟨a1, j2, p2, h2, h⟩ := h
  · obtain ⟨hok, hw, hc⟩ := calls_of_abort h
    exact .inl ⟨hok, hw, .inl (by simp [hc, c1, c0, a1, Config.deviceAddr])⟩
  have c2 := Progress.calls_of_call h2
  obtain ⟨a2, h⟩ | ⟨a2, j3, p3, h3, h⟩ := h
  · obtain ⟨hok, hw, hc⟩ := calls_of_abort h
    exact .inl ⟨hok, hw, .inr (.inl (by simp [hc, c2, c1, c0, a1, a2, Config.deviceAddr]))⟩
  have c3 := Progress.calls_of_call h3
  obtain ⟨a3, h⟩ | ⟨a3, h⟩ := h
  · obtain ⟨hok, hw, hc⟩ := calls_of_abort h
    exact .inl ⟨hok, hw, .inr (.inr (by simp [hc, c3, c2, c1, c0, a1, a2, a3, Config.deviceAddr]))⟩
  · exact .inr ⟨p3, by simp [c3, c2, c1, c0, a1, a2, a3, writePhase, Config.deviceAddr], h⟩

/-! ### The ten shapes -/

/-- The last word: whether it passes is the result. -/
theorem calls_of_readWords_one {words : List Word} {p : Progress} {r : TransactResult} (h : readWords 1 words p = some r) :
    ∃ b0 b1 c, r.ok = frameValid b0 b1 c ∧ r.words = (if r.ok then words ++ [rawWord b0 b1] else []) ∧
      r.calls = p.calls ++ frameCalls b0 b1 c false ++ [.stop] := by
  obtain ⟨b0, b1, c, p', hf, ⟨hv, h⟩ | ⟨hv, h⟩⟩ := readWords_succ_eq_some h
  all_goals
    have hcf := calls_of_readFrame hf
    obtain ⟨hok, hw, hc⟩ := calls_of_close h
    refine ⟨b0, b1, c, by rw [hok, hv], by rw [hok]; exact hw, ?_⟩
    rw [hc, Progress.pass_calls, hcf]
    rfl

/-- The first of two words: a wrong checksum aborts. -/
theorem calls_of_readWords_two {p : Progress} {r : TransactResult} (h : readWords 2 [] p = some r) :
    (∃ b0 b1 c, frameValid b0 b1 c = false ∧ r.ok = false ∧ r.words = [] ∧
      r.calls = p.calls ++ frameCalls b0 b1 c true ++ [.stop]) ∨
    (∃ b0 b1 c d0 d1 d, frameValid b0 b1 c = true ∧ r.ok = frameValid d0 d1 d ∧
      r.words = (if r.ok then [rawWord b0 b1, rawWord d0 d1] else []) ∧
      r.calls = p.calls ++ frameCalls b0 b1 c true ++ frameCalls d0 d1 d false ++ [.stop]) := by
  obtain ⟨b0, b1, c, p', hf, ⟨hv, h⟩ | ⟨hv, h⟩⟩ := readWords_succ_eq_some h
  · obtain ⟨d0, d1, d, hok, hw, hc⟩ := calls_of_readWords_one h
    refine .inr ⟨b0, b1, c, d0, d1, d, hv, hok, hw, ?_⟩
    rw [hc, Progress.pass_calls, calls_of_readFrame hf]
    rfl
  · obtain ⟨hok, hw, hc⟩ := calls_of_abort h
    refine .inl ⟨b0, b1, c, hv, hok, hw, ?_⟩
    rw [hc, Progress.pass_calls, calls_of_readFrame hf]
    rfl

/-- Settles O52: the shapes of the three phases, put together. -/
theorem transactTracesHaveTheListedShapes : Obligations.TransactTracesHaveTheListedShapes := by
  intro code words midStop inputs r hle h
  obtain h | ⟨p, hp, h⟩ := calls_of_transact h
  · exact .inl h
  refine .inr ?_
  obtain h | h | ⟨hpos, p', hp', h⟩ := calls_of_afterWrite h
  · exact .inl (hp ▸ h)
  · exact .inr (.inl (hp ▸ h))
  refine .inr (.inr ?_)
  rw [hp] at hp'
  obtain rfl | rfl : words = 1 ∨ words = 2 := by omega
  · exact .inl ⟨rfl, hp' ▸ calls_of_readWords_one h⟩
  · exact .inr ((hp' ▸ calls_of_readWords_two h).imp (fun hx => ⟨rfl, hx⟩) fun hx => ⟨rfl, hx⟩)

/-! ### The starts and the stops -/

theorem starts_append (a b : List BusCall) : starts (a ++ b) = starts a + starts b := List.countP_append

theorem stops_append (a b : List BusCall) : stops (a ++ b) = stops a + stops b := List.countP_append

/-- Reading words makes no start, and the closing stop alone. -/
theorem counts_of_readWords (left : Nat) {words : List Word} {p : Progress} {r : TransactResult}
    (h : readWords left words p = some r) : ∃ calls, r.calls = p.calls ++ calls ∧ starts calls = 0 ∧ stops calls = 1 := by
  induction left generalizing words p with
  | zero =>
    obtain ⟨-, -, hc⟩ := calls_of_close h
    exact ⟨[.stop], hc, rfl, rfl⟩
  | succ left ih =>
    obtain ⟨b0, b1, c, p', hf, h⟩ := readWords_succ_eq_some h
    have hcf := calls_of_readFrame hf
    obtain ⟨calls, hc, hstart, hstop⟩ : ∃ calls, r.calls = p'.calls ++ calls ∧ starts calls = 0 ∧ stops calls = 1 := by
      obtain ⟨-, h⟩ | ⟨-, h⟩ := h
      · rw [← p'.pass_calls]
        exact ih h
      · obtain ⟨-, -, hc⟩ := calls_of_abort h
        exact ⟨[.stop], hc, rfl, rfl⟩
    refine ⟨frameCalls b0 b1 c (decide (0 < left)) ++ calls, by rw [hc, hcf, List.append_assoc], ?_, ?_⟩
    · rw [starts_append, hstart]; rfl
    · rw [stops_append, hstop]; rfl

/-- Past the write phase: a second start, and the intermediate stop if there is one. -/
theorem counts_of_afterWrite {words : Nat} {midStop : Bool} {p : Progress} {r : TransactResult} (hpos : 0 < words)
    (h : afterWrite words midStop p = some r) :
    ∃ calls, r.calls = p.calls ++ calls ∧ starts calls = 1 ∧ stops calls = if midStop then 2 else 1 := by
  obtain ⟨h0, -⟩ | ⟨-, -, -, hc⟩ | ⟨-, p', hp', h⟩ := calls_of_afterWrite h
  · omega
  · exact ⟨_, by rw [hc, List.append_assoc], by cases midStop <;> rfl, by cases midStop <;> rfl⟩
  · obtain ⟨calls, hc, hstart, hstop⟩ := counts_of_readWords words h
    refine ⟨readOpening midStop true ++ calls, by rw [hc, hp', List.append_assoc], ?_, ?_⟩
    · rw [starts_append, hstart]; cases midStop <;> rfl
    · rw [stops_append, hstop]; cases midStop <;> rfl

/-- Settles O53: the fourth call is the acknowledged low byte exactly if the write phase was completed. -/
theorem startsAndStopsOfAnOperation : Obligations.StartsAndStopsOfAnOperation := by
  intro code words midStop inputs r h
  obtain ⟨-, -, hshape⟩ | ⟨p, hp, h⟩ := calls_of_transact h
  · have failed : r.calls[3]? ≠ some (.data code.low true) ∧ starts r.calls = 1 ∧ stops r.calls = 1 := by
      obtain hc | hc | hc := hshape <;> rw [hc] <;> exact ⟨by simp, rfl, rfl⟩
    obtain ⟨hne, hcounts⟩ := failed
    exact ⟨fun _ => hcounts, fun _ heq => absurd heq hne⟩
  · have completed (calls : List BusCall) (hc : r.calls = writePhase code ++ calls) :
        r.calls[3]? = some (.data code.low true) := by rw [hc]; rfl
    obtain rfl | hpos := Nat.eq_zero_or_pos words
    · obtain ⟨-, -, -, hc⟩ | ⟨hpos, -⟩ | ⟨hpos, -⟩ := calls_of_afterWrite h
      · refine ⟨fun _ => ?_, fun hpos => absurd hpos (Nat.lt_irrefl 0)⟩
        rw [hc, hp]
        exact ⟨rfl, rfl⟩
      · exact absurd hpos (Nat.lt_irrefl 0)
      · exact absurd hpos (Nat.lt_irrefl 0)
    · obtain ⟨calls, hc, hstart, hstop⟩ := counts_of_afterWrite hpos h
      rw [hp] at hc
      refine ⟨fun hor => ?_, fun _ _ => ?_⟩
      · obtain h0 | hne := hor
        · omega
        · exact absurd (completed calls hc) hne
      · rw [hc, starts_append, stops_append, hstart, hstop]
        cases midStop <;> exact ⟨rfl, rfl⟩

end Sys2Proof.Machine
end

section
/-! PROOFS. The micro-steps do what the sequential procedure `transact` says (43_operations.md R114), and whole operations from the
offer to their end (42_sequencer.md R111). -/

namespace Sys2Proof.Machine

open Sys2Proof.Statements

/-! ### Runs that let inputs pass, one a step -/

/-- A run takes `s` to `s'` in as many steps as inputs pass between them. -/
def Reaches (s s' : State) : Prop := ∃ n, runFor n s = .next s' ∧ s.inputs.length = n + s'.inputs.length

theorem Reaches.refl (s : State) : Reaches s s := ⟨0, rfl, (Nat.zero_add _).symm⟩

theorem Reaches.trans {s₁ s₂ s₃ : State} (h : Reaches s₁ s₂) (h' : Reaches s₂ s₃) : Reaches s₁ s₃ := by
  obtain ⟨m, hm, hlm⟩ := h
  obtain ⟨n, hn, hln⟩ := h'
  exact ⟨m + n, (runFor_add_of_next m n hm).trans hn, by omega⟩

/-- A micro-step lets one input pass. -/
theorem Fires.reaches {i : Instr} {s s' : State} {j : Input} {rest : List Input} (hf : Fires i s s')
    (hl : s.latched = some i) (hs : s.inputs = j :: rest) (hr : j.rst = false) : Reaches s s' := by
  have hstep := (StepTo.fires (by rw [State.input_cons s j rest hs, hr]) hl hf).step_eq
  exact ⟨1, by rw [runFor_succ_of_next 0 hstep, runFor_zero], by rw [hf.inputs, hs, List.tail_cons, List.length_cons]; omega⟩

/-- The number of steps is the number of inputs that have passed. -/
theorem Reaches.runFor_eq {s s' : State} {n : Nat} (h : Reaches s s') (hn : s.inputs.length = n + s'.inputs.length) :
    runFor n s = .next s' := by
  obtain ⟨m, hm, hlm⟩ := h
  obtain rfl : m = n := by omega
  exact hm

/-! ### The state in the course of a transaction -/

/-- `s` where the transaction that began in it has come as far as `p`. -/
def State.progressed (s : State) (p : Progress) : State := { s with trace := s.trace ++ p.calls, inputs := p.rest }

/-- No reset is to come. -/
def Progress.NoReset (p : Progress) : Prop := ∀ j ∈ p.rest, j.rst = false

theorem Progress.NoReset.pass {p : Progress} (h : p.NoReset) : p.pass.NoReset := fun j hj => h j (List.mem_of_mem_tail hj)

theorem Progress.NoReset.call {p p' : Progress} {entry : Input → BusCall} {j : Input} (h : p.NoReset)
    (hc : p.call entry = some (j, p')) : p'.NoReset := by
  obtain ⟨ha, -⟩ := Progress.call_eq_some_iff.mp hc
  obtain ⟨-, waiting, hw, -⟩ := awaitReply_eq_some ha
  exact fun x hx => h x (by simp [hw, hx])

/-- Waiting for the reply to an outstanding call. -/
theorem reaches_reply {s : State} {i : Instr} (hl : s.latched = some i) (hq : s.busRequest ≠ none) {j : Input}
    {rest inputs : List Input} (hr : ∀ x ∈ inputs, x.rst = false) (ha : awaitReply inputs = some (j, rest)) :
    Reaches { s with inputs := inputs } { s with inputs := j :: rest } := by
  induction inputs with
  | nil => cases ha
  | cons x tail ih =>
    cases hx : x.busRsp with
    | true =>
      obtain ⟨rfl, rfl⟩ : x = j ∧ tail = rest := by simpa [awaitReply, hx] using ha
      exact Reaches.refl _
    | false =>
      have hf : Fires i { s with inputs := x :: tail } { s with inputs := tail } := .waits hq hx
      refine (hf.reaches hl rfl (hr x (by simp))).trans ?_
      exact ih (fun y hy => hr y (by simp [hy])) (by simpa [awaitReply, hx] using ha)

/-- One call of the transaction: the block waits for the reply, and the micro-step that is answered notes the same call. -/
theorem reaches_call {s t : State} {i : Instr} {p p' : Progress} {entry : Input → BusCall} {j : Input}
    (hl : s.latched = some i) (hq : s.busRequest ≠ none) (hr : p.NoReset) (hc : p.call entry = some (j, p'))
    (ht : t.trace = s.trace)
    (hf : j.busRsp = true → Fires i { s with trace := s.trace ++ p.calls, inputs := j :: p'.rest }
      { t with trace := s.trace ++ p.calls ++ [entry j], inputs := p'.rest }) :
    Reaches (s.progressed p) (t.progressed p') := by
  obtain ⟨ha, hcalls⟩ := Progress.call_eq_some_iff.mp hc
  obtain ⟨hrsp, waiting, hw, -⟩ := awaitReply_eq_some ha
  have waits := reaches_reply (s := { s with trace := s.trace ++ p.calls }) hl hq hr ha
  have answered := (hf hrsp).reaches hl rfl (hr j (by simp [hw]))
  have heq : t.progressed p' = { t with trace := s.trace ++ p.calls ++ [entry j], inputs := p'.rest } := by
    simp [State.progressed, hcalls, ht]
  rw [heq]
  exact waits.trans answered

/-- The step of a check, which lets one input pass. -/
theorem reaches_pass {s t : State} {i : Instr} {p : Progress} (hl : s.latched = some i) (hr : p.NoReset)
    (hne : p.rest ≠ []) (hf : Fires i (s.progressed p) (t.progressed p.pass)) :
    Reaches (s.progressed p) (t.progressed p.pass) := by
  obtain ⟨j, rest, hp⟩ := List.exists_cons_of_ne_nil hne
  exact hf.reaches hl hp (hr j (by simp [hp]))

/-- A transaction that goes on has inputs left. -/
theorem Progress.rest_ne_nil_of_call {p p' : Progress} {entry : Input → BusCall} {j : Input}
    (h : p.call entry = some (j, p')) : p.rest ≠ [] := by
  obtain ⟨ha, -⟩ := Progress.call_eq_some_iff.mp h
  intro hp
  rw [hp] at ha
  cases ha

theorem Progress.rest_ne_nil_of_pass {p : Progress} (h : p.pass.rest ≠ []) : p.rest ≠ [] := by
  intro hp
  exact h (by rw [Progress.pass, hp]; rfl)

theorem rest_ne_nil_of_close {ok : Bool} {words : List Word} {p : Progress} {r : TransactResult}
    (h : closeTransaction ok words p = some r) : p.rest ≠ [] := by
  obtain ⟨-, -, j, hc⟩ := closeTransaction_eq_some h
  exact Progress.rest_ne_nil_of_call hc

theorem rest_ne_nil_of_readWords {left : Nat} {words : List Word} {p : Progress} {r : TransactResult}
    (h : readWords left words p = some r) : p.rest ≠ [] := by
  cases left with
  | zero => exact rest_ne_nil_of_close h
  | succ left =>
    obtain ⟨b0, b1, c, p', hf, -⟩ := readWords_succ_eq_some h
    obtain ⟨j0, p0, j1, p1, j2, h0, -⟩ := readFrame_eq_some hf
    exact Progress.rest_ne_nil_of_call h0

/-! ### The parts of an operation -/

section
variable {i : Instr} {s : State} {p p' : Progress} {j : Input}

/-- The bus calls do not depend on the trace and the inputs of the state. -/
theorem AckCall.with_trace_inputs {o : Operation} {entry : Bool → BusCall} {after : Upc} (h : AckCall o s entry after)
    (trace : List BusCall) (inputs : List Input) :
    AckCall o { s with trace := trace, inputs := inputs } entry after := by
  cases h with
  | wAddr hu => exact .wAddr hu
  | wMsb hu => exact .wMsb hu
  | wLsb hu => exact .wLsb hu
  | rAddr hu => exact .rAddr hu

theorem AckCall.busRequest_ne_none {o : Operation} {entry : Bool → BusCall} {after : Upc} (h : AckCall o s entry after) :
    s.busRequest ≠ none := by
  obtain ⟨q, hq, -⟩ := h.exists_request
  simp [hq]

theorem reaches_acked {entry : Bool → BusCall} {after : Upc} (call : AckCall (operationOf i) s entry after)
    (hl : s.latched = some i) (hr : p.NoReset) (hc : p.call (fun x => entry x.busAckIn) = some (j, p'))
    (ha : j.busAckIn = true) : Reaches (s.progressed p) (({ s with upc := after } : State).progressed p') := by
  refine reaches_call hl call.busRequest_ne_none hr hc rfl fun hrsp => ?_
  rw [ha]
  exact .acked (call.with_trace_inputs _ _) hrsp ha

theorem reaches_nacked {entry : Bool → BusCall} {after : Upc} (call : AckCall (operationOf i) s entry after)
    (hl : s.latched = some i) (hr : p.NoReset) (hc : p.call (fun x => entry x.busAckIn) = some (j, p'))
    (ha : j.busAckIn = false) :
    Reaches (s.progressed p) (({ s with fail := true, upc := .finalStop } : State).progressed p') := by
  refine reaches_call hl call.busRequest_ne_none hr hc rfl fun hrsp => ?_
  rw [ha]
  exact .nacked (call.with_trace_inputs _ _) hrsp ha

theorem reaches_wStart (hu : s.upc = .wStart) (hl : s.latched = some i) (hr : p.NoReset)
    (hc : p.call (fun _ => .start) = some (j, p')) :
    Reaches (s.progressed p) (({ s with upc := .wAddr } : State).progressed p') :=
  reaches_call hl (by simp [State.busRequest, hu]) hr hc rfl fun hrsp => .wStart hu hrsp

theorem reaches_midStop (hu : s.upc = .midStop) (hl : s.latched = some i) (hr : p.NoReset)
    (hc : p.call (fun _ => .stop) = some (j, p')) :
    Reaches (s.progressed p) (({ s with upc := .rStart } : State).progressed p') :=
  reaches_call hl (by simp [State.busRequest, hu]) hr hc rfl fun hrsp => .midStop hu hrsp

theorem reaches_rStart (hu : s.upc = .rStart) (hl : s.latched = some i) (hr : p.NoReset)
    (hc : p.call (fun _ => .start) = some (j, p')) :
    Reaches (s.progressed p) (({ s with upc := .rAddr } : State).progressed p') :=
  reaches_call hl (by simp [State.busRequest, hu]) hr hc rfl fun hrsp => .rStart hu hrsp

theorem reaches_failed (hu : s.upc = .finalStop) (hf : s.fail = true) (hl : s.latched = some i) (hr : p.NoReset)
    (hc : p.call (fun _ => .stop) = some (j, p')) :
    Reaches (s.progressed p) (({ s with upc := .failed } : State).progressed p') :=
  reaches_call hl (by simp [State.busRequest, hu]) hr hc rfl fun hrsp => .endsFailed hu hf hrsp

theorem reaches_done (hu : s.upc = .finalStop) (hf : s.fail = false) (hl : s.latched = some i) (hr : p.NoReset)
    (hc : p.call (fun _ => .stop) = some (j, p')) :
    Reaches (s.progressed p)
      (({ commitWords (operationOf i).commit s with upc := .done } : State).progressed p') := by
  refine reaches_call hl (by simp [State.busRequest, hu]) hr hc (commitWords_trace _ _) fun hrsp => ?_
  have h := Fires.endsDone (i := i) (s := { s with trace := s.trace ++ p.calls, inputs := j :: p'.rest }) hu hf hrsp
  cases i <;> exact h

theorem Progress.NoReset.readFrame {more : Bool} {b0 b1 c : Byte} (hr : p.NoReset)
    (h : readFrame more p = some (b0, b1, c, p')) : p'.NoReset := by
  obtain ⟨j0, p0, j1, p1, j2, h0, h1, h2, -, -, -⟩ := readFrame_eq_some h
  exact ((hr.call h0).call h1).call h2

/-- The three bytes of a word (R103 to R105). -/
theorem reaches_frame {more : Bool} {b0 b1 c : Byte} (hu : s.upc = .rB0) (hl : s.latched = some i) (hr : p.NoReset)
    (hmore : s.moreFollow (operationOf i).words = more) (h : readFrame more p = some (b0, b1, c, p')) :
    Reaches (s.progressed p) (({ s with b0 := b0, b1 := b1, c := c, upc := .check } : State).progressed p') := by
  obtain ⟨j0, p0, j1, p1, j2, h0, h1, h2, rfl, rfl, rfl⟩ := readFrame_eq_some h
  have first : Reaches (s.progressed p) (({ s with b0 := j0.busRdata, upc := .rB1 } : State).progressed p0) :=
    reaches_call hl (by simp [State.busRequest, hu]) hr h0 rfl fun hrsp => .rB0 hu hrsp
  have second : Reaches (({ s with b0 := j0.busRdata, upc := .rB1 } : State).progressed p0)
      (({ s with b0 := j0.busRdata, b1 := j1.busRdata, upc := .rCrc } : State).progressed p1) :=
    reaches_call hl (by simp [State.busRequest]) (hr.call h0) h1 rfl fun hrsp => .rB1 rfl hrsp
  refine (first.trans second).trans ?_
  refine reaches_call hl (by simp [State.busRequest]) ((hr.call h0).call h1) h2 rfl fun hrsp => ?_
  subst hmore
  exact .rCrc rfl hrsp

theorem frameValid_iff (b0 b1 c : Byte) : frameValid b0 b1 c = true ↔ crc8 (rawWord b0 b1) = c := by
  simp [frameValid]

theorem frameValid_eq_false_iff (b0 b1 c : Byte) : frameValid b0 b1 c = false ↔ crc8 (rawWord b0 b1) ≠ c := by
  rw [← Bool.not_eq_true, frameValid_iff]

/-- A word with a wrong checksum: its bytes are latched and checked, and the operation has failed (R126). -/
theorem reaches_mismatch {more : Bool} {b0 b1 c : Byte} (hu : s.upc = .rB0) (hl : s.latched = some i) (hr : p.NoReset)
    (hmore : s.moreFollow (operationOf i).words = more) (h : readFrame more p = some (b0, b1, c, p'))
    (hv : frameValid b0 b1 c = false) (hne : p'.rest ≠ []) :
    Reaches (s.progressed p) (({ s with
      b0 := b0, b1 := b1, c := c, crc := crc8 (rawWord b0 b1), fail := true, upc := .finalStop } : State).progressed
        p'.pass) :=
  (reaches_frame hu hl hr hmore h).trans
    (reaches_pass hl (hr.readFrame h) hne (.mismatch rfl ((frameValid_eq_false_iff _ _ _).mp hv)))

/-- The first of two words, valid: it is staged, and the second is read next (R106). -/
theorem reaches_firstWord {b0 b1 c : Byte} (hu : s.upc = .rB0) (hl : s.latched = some i) (hr : p.NoReset)
    (hx : s.widx = 0#1) (hk : (operationOf i).words = 2) (h : readFrame true p = some (b0, b1, c, p'))
    (hv : frameValid b0 b1 c = true) (hne : p'.rest ≠ []) :
    Reaches (s.progressed p) (({ s with
      b0 := b0, b1 := b1, c := c, crc := c, stage0 := rawWord b0 b1, widx := 1#1, upc := .rB0 } : State).progressed
        p'.pass) :=
  (reaches_frame hu hl hr (by simp [State.moreFollow, hx, hk]) h).trans
    (reaches_pass hl (hr.readFrame h) hne (.firstWord rfl ((frameValid_iff _ _ _).mp hv) hx (by omega)))

/-- The second of two words, valid. -/
theorem reaches_secondWord {b0 b1 c : Byte} (hu : s.upc = .rB0) (hl : s.latched = some i) (hr : p.NoReset)
    (hx : s.widx = 1#1) (hk : (operationOf i).words = 2) (h : readFrame false p = some (b0, b1, c, p'))
    (hv : frameValid b0 b1 c = true) (hne : p'.rest ≠ []) :
    Reaches (s.progressed p) (({ s with
      b0 := b0, b1 := b1, c := c, crc := c, stage1 := rawWord b0 b1, upc := .finalStop } : State).progressed p'.pass) :=
  (reaches_frame hu hl hr (by simp [State.moreFollow, hx, hk]) h).trans
    (reaches_pass hl (hr.readFrame h) hne (.secondWord rfl ((frameValid_iff _ _ _).mp hv) hx))

/-- The only word, valid. -/
theorem reaches_onlyWord {b0 b1 c : Byte} (hu : s.upc = .rB0) (hl : s.latched = some i) (hr : p.NoReset)
    (hx : s.widx = 0#1) (hk : (operationOf i).words = 1) (h : readFrame false p = some (b0, b1, c, p'))
    (hv : frameValid b0 b1 c = true) (hne : p'.rest ≠ []) :
    Reaches (s.progressed p) (({ s with
      b0 := b0, b1 := b1, c := c, crc := c, stage0 := rawWord b0 b1, upc := .finalStop } : State).progressed p'.pass) :=
  (reaches_frame hu hl hr (by simp [State.moreFollow, hx, hk]) h).trans
    (reaches_pass hl (hr.readFrame h) hne (.onlyWord rfl ((frameValid_iff _ _ _).mp hv) hx (by omega)))

end

/-! ### The micro-steps and the procedure -/

/-- From where the transaction of `s` has come as far as `p`, the operation `i` ends as `r` says. -/
def EndsAs (i : Instr) (s : State) (p : Progress) (r : TransactResult) : Prop :=
  ∃ s', Reaches (s.progressed p) s' ∧ s'.upc = (if r.ok then .done else .failed) ∧ s'.trace = s.trace ++ r.calls ∧
    s'.inputs = r.rest ∧ s'.sensor = commitTransaction (operationOf i).commit r.words s.sensor

section
variable {i : Instr} {s t : State} {p p' : Progress} {r : TransactResult}

/-- Micro-steps that go on with the operation. -/
theorem Reaches.endsAs (hreach : Reaches (s.progressed p) (t.progressed p')) (ht : t.trace = s.trace)
    (hs : t.sensor = s.sensor) (h : EndsAs i t p' r) : EndsAs i s p r := by
  obtain ⟨s', hend, hu, htr, hin, hsens⟩ := h
  exact ⟨s', hreach.trans hend, hu, ht ▸ htr, hin, hs ▸ hsens⟩

theorem commitTransaction_nil (commit : Commit) (x : SensorState) : commitTransaction commit [] x = x := by
  cases commit <;> rfl

/-- The closing stop of a failure. -/
theorem endsAs_of_abort (hu : s.upc = .finalStop) (hf : s.fail = true) (hl : s.latched = some i) (hr : p.NoReset)
    (h : closeTransaction false [] p = some r) : EndsAs i s p r := by
  obtain ⟨hok, hw, j, hc⟩ := closeTransaction_eq_some h
  have hw' : r.words = [] := hw
  refine ⟨_, reaches_failed hu hf hl hr hc, ?_, rfl, rfl, ?_⟩
  · rw [hok]; rfl
  · rw [hw', commitTransaction_nil]; rfl

/-- The closing stop of a success. -/
theorem endsAs_of_success {words : List Word} (hu : s.upc = .finalStop) (hf : s.fail = false) (hl : s.latched = some i)
    (hr : p.NoReset) (h : closeTransaction true words p = some r)
    (hcommit : (commitWords (operationOf i).commit s).sensor = commitTransaction (operationOf i).commit words s.sensor) :
    EndsAs i s p r := by
  obtain ⟨hok, hw, j, hc⟩ := closeTransaction_eq_some h
  have hw' : r.words = words := hw
  refine ⟨_, reaches_done hu hf hl hr hc, ?_, ?_, rfl, ?_⟩
  · rw [hok]; rfl
  · exact congrArg (· ++ r.calls) (commitWords_trace _ s)
  · rw [hw']; exact hcommit

/-- What a read operation commits, as the block holds it and as the procedure does. -/
theorem sensor_commitWords_one (hk : (operationOf i).words = 1) (s : State) :
    (commitWords (operationOf i).commit s).sensor = commitTransaction (operationOf i).commit [s.stage0] s.sensor := by
  cases i with
  | softReset | setPeriodic | clearStatus | breakOp | fetch | singleShot => cases hk
  | readStatus => rfl

theorem sensor_commitWords_two (hk : (operationOf i).words = 2) (s : State) :
    (commitWords (operationOf i).commit s).sensor =
      commitTransaction (operationOf i).commit [s.stage0, s.stage1] s.sensor := by
  cases i with
  | softReset | setPeriodic | clearStatus | breakOp | readStatus => cases hk
  | fetch | singleShot => rfl

/-- The second of two words. -/
theorem endsAs_secondWord (hu : s.upc = .rB0) (hf : s.fail = false) (hl : s.latched = some i) (hr : p.NoReset)
    (hx : s.widx = 1#1) (hk : (operationOf i).words = 2) (h : readWords 1 [s.stage0] p = some r) : EndsAs i s p r := by
  obtain ⟨b0, b1, c, p', hframe, ⟨hv, h⟩ | ⟨hv, h⟩⟩ := readWords_succ_eq_some h
  · have hne := Progress.rest_ne_nil_of_pass (rest_ne_nil_of_readWords h)
    have hreach := reaches_secondWord hu hl hr hx hk hframe hv hne
    exact hreach.endsAs rfl rfl (endsAs_of_success rfl hf hl (hr.readFrame hframe).pass h (sensor_commitWords_two hk _))
  · have hne := Progress.rest_ne_nil_of_pass (rest_ne_nil_of_close h)
    have hreach := reaches_mismatch hu hl hr (by simp [State.moreFollow, hx, hk]) hframe hv hne
    exact hreach.endsAs rfl rfl (endsAs_of_abort rfl rfl hl (hr.readFrame hframe).pass h)

/-- The words of the operation, one or two. -/
theorem endsAs_readWords (hu : s.upc = .rB0) (hf : s.fail = false) (hl : s.latched = some i) (hr : p.NoReset)
    (hx : s.widx = 0#1) (hpos : 0 < (operationOf i).words) (h : readWords (operationOf i).words [] p = some r) :
    EndsAs i s p r := by
  obtain hk | hk : (operationOf i).words = 1 ∨ (operationOf i).words = 2 := by
    have := operationOf_words_le i
    omega
  all_goals
    rw [hk] at h
    obtain ⟨b0, b1, c, p', hframe, ⟨hv, h⟩ | ⟨hv, h⟩⟩ := readWords_succ_eq_some h
  · have hne := Progress.rest_ne_nil_of_pass (rest_ne_nil_of_readWords h)
    have hreach := reaches_onlyWord hu hl hr hx hk hframe hv hne
    exact hreach.endsAs rfl rfl (endsAs_of_success rfl hf hl (hr.readFrame hframe).pass h (sensor_commitWords_one hk _))
  · have hne := Progress.rest_ne_nil_of_pass (rest_ne_nil_of_close h)
    have hreach := reaches_mismatch hu hl hr (by simp [State.moreFollow, hx, hk]) hframe hv hne
    exact hreach.endsAs rfl rfl (endsAs_of_abort rfl rfl hl (hr.readFrame hframe).pass h)
  · have hne := Progress.rest_ne_nil_of_pass (rest_ne_nil_of_readWords h)
    have hreach := reaches_firstWord hu hl hr hx hk hframe hv hne
    exact hreach.endsAs rfl rfl (endsAs_secondWord rfl hf hl (hr.readFrame hframe).pass rfl hk h)
  · have hne := Progress.rest_ne_nil_of_pass (rest_ne_nil_of_close h)
    have hreach := reaches_mismatch hu hl hr (by simp [State.moreFollow, hx, hk]) hframe hv hne
    exact hreach.endsAs rfl rfl (endsAs_of_abort rfl rfl hl (hr.readFrame hframe).pass h)

theorem endsAs_readPhase (hu : s.upc = .rStart) (hf : s.fail = false) (hl : s.latched = some i) (hr : p.NoReset)
    (hx : s.widx = 0#1) (hpos : 0 < (operationOf i).words) (h : readPhase (operationOf i).words p = some r) :
    EndsAs i s p r := by
  obtain ⟨j0, p0, j1, p1, h0, h1, h⟩ := readPhase_eq_some h
  have start := reaches_rStart hu hl hr h0
  have call : AckCall (operationOf i) { s with upc := .rAddr } (.addressRead 0x44#7) .rB0 := .rAddr rfl
  obtain ⟨ha, h⟩ | ⟨ha, h⟩ := h
  · exact (start.trans (reaches_acked call hl (hr.call h0) h1 ha)).endsAs rfl rfl
      (endsAs_readWords rfl hf hl ((hr.call h0).call h1) hx hpos h)
  · exact (start.trans (reaches_nacked call hl (hr.call h0) h1 ha)).endsAs rfl rfl
      (endsAs_of_abort rfl rfl hl ((hr.call h0).call h1) h)

theorem endsAs_afterWrite (hu : s.upc = afterWritePhase (operationOf i)) (hf : s.fail = false) (hl : s.latched = some i)
    (hr : p.NoReset) (hx : s.widx = 0#1)
    (h : afterWrite (operationOf i).words (operationOf i).midStop p = some r) : EndsAs i s p r := by
  obtain ⟨h0, h⟩ | ⟨hpos, hm, h⟩ | ⟨hpos, hm, j, p', hc, h⟩ := afterWrite_eq_some h
  · refine endsAs_of_success (hu.trans (if_pos h0)) hf hl hr h ?_
    cases i with
    | softReset | setPeriodic | clearStatus | breakOp => rfl
    | fetch | singleShot | readStatus => cases h0
  · have hu' : s.upc = .rStart := by simp [hu, afterWritePhase, hm, Nat.ne_of_gt hpos]
    exact endsAs_readPhase hu' hf hl hr hx hpos h
  · have hu' : s.upc = .midStop := by simp [hu, afterWritePhase, hm, Nat.ne_of_gt hpos]
    exact (reaches_midStop hu' hl hr hc).endsAs rfl rfl (endsAs_readPhase rfl hf hl (hr.call hc) hx hpos h)

theorem endsAs_transact {inputs : List Input} (hu : s.upc = .wStart) (hf : s.fail = false) (hl : s.latched = some i)
    (hr : (Progress.mk inputs []).NoReset) (hx : s.widx = 0#1)
    (h : transact s.codeR (operationOf i).words (operationOf i).midStop inputs = some r) : EndsAs i s ⟨inputs, []⟩ r := by
  obtain ⟨j0, p0, j1, p1, h0, h1, h⟩ := transact_eq_some h
  have r0 := hr.call h0
  have start := reaches_wStart hu hl hr h0
  have addr : AckCall (operationOf i) { s with upc := .wAddr } (.addressWrite 0x44#7) .wMsb := .wAddr rfl
  obtain ⟨a1, h⟩ | ⟨a1, j2, p2, h2, h⟩ := h
  · exact (start.trans (reaches_nacked addr hl r0 h1 a1)).endsAs rfl rfl (endsAs_of_abort rfl rfl hl (r0.call h1) h)
  have addressed := start.trans (reaches_acked addr hl r0 h1 a1)
  have msb : AckCall (operationOf i) { s with upc := .wMsb } (.data s.codeR.high) .wLsb := .wMsb rfl
  have r1 := r0.call h1
  obtain ⟨a2, h⟩ | ⟨a2, j3, p3, h3, h⟩ := h
  · exact (addressed.trans (reaches_nacked msb hl r1 h2 a2)).endsAs rfl rfl (endsAs_of_abort rfl rfl hl (r1.call h2) h)
  have highSent := addressed.trans (reaches_acked msb hl r1 h2 a2)
  have lsb : AckCall (operationOf i) { s with upc := .wLsb } (.data s.codeR.low) (afterWritePhase (operationOf i)) := .wLsb rfl
  have r2 := r1.call h2
  obtain ⟨a3, h⟩ | ⟨a3, h⟩ := h
  · exact (highSent.trans (reaches_nacked lsb hl r2 h3 a3)).endsAs rfl rfl (endsAs_of_abort rfl rfl hl (r2.call h3) h)
  · exact (highSent.trans (reaches_acked lsb hl r2 h3 a3)).endsAs rfl rfl (endsAs_afterWrite rfl hf hl (r2.call h3) hx h)

end

/-! ### From the offer -/

/-- `s` with the operation `i` accepted. -/
def State.accepted (s : State) (i : Instr) (code : Word) : State :=
  { s with
    opR := i.op, rateR := cmdRate i.cmd, repR := cmdRep i.cmd, codeR := code, fail := false, widx := 0, upc := .wStart }

theorem latched_accepted (s : State) (i : Instr) (code : Word) : (s.accepted i code).latched = some i := by
  have hop : cmdOp i.cmd = i.op := cmdOp_append _ _
  have h := ofFields_cmd i
  rw [hop] at h
  exact h

/-- The accept step: an operation with a wire code, offered to a block that is not busy. -/
theorem step_of_offered {s : State} {i : Instr} {code : Word} {offer : Input} {inputs : List Input} (hb : s.busy = false)
    (hs : s.inputs = offer :: inputs) (hr : offer.rst = false) (hv : offer.cmdValid = true) (hcmd : offer.cmd = i.cmd)
    (hw : wireCode s.rom i.op (cmdRate i.cmd) (cmdRep i.cmd) = some code) :
    step s = .next ((s.accepted i code).progressed ⟨inputs, []⟩) := by
  have hi : s.input = offer := State.input_cons s offer inputs hs
  have hop : cmdOp i.cmd = i.op := cmdOp_append _ _
  have hw' : wireCode s.rom (cmdOp s.input.cmd) (cmdRate s.input.cmd) (cmdRep s.input.cmd) = some code := by
    rw [hi, hcmd, hop, hw]
  rw [(StepTo.accepts (by rw [hi, hr]) hb (by rw [hi, hv]) hw').step_eq]
  simp [State.progressed, State.accepted, hi, hcmd, hop, hs]

/-- Settles O51: the accept, and then part by part. -/
theorem microStepsRefineTransact : Obligations.MicroStepsRefineTransact := by
  intro i s offer inputs code r _ hb hs hr hv hcmd hin hw h
  obtain ⟨s', hreach, hu, htr, hrest, hsens⟩ : EndsAs i (s.accepted i code) ⟨inputs, []⟩ r :=
    endsAs_transact rfl rfl (latched_accepted s i code) hin rfl h
  refine ⟨s', ?_, hu, htr, hrest, hsens⟩
  obtain ⟨n, hrun, hlen⟩ := hreach
  have hn : inputs.length = n + r.rest.length := hrest ▸ hlen
  rw [hn, Nat.add_sub_cancel, Nat.add_comm 1 n, runFor_succ_of_next n (step_of_offered hb hs hr hv hcmd hw), hrun]

end Sys2Proof.Machine
end

section
/-! PROOFS. Whole operations that are answered promptly, from the offer to their end (42_sequencer.md R111, rows T4, T7, T9, T10;
43_operations.md R116 to R122). -/

namespace Sys2Proof.Machine

open Sys2Proof.Statements

/-! ### Inputs that a run does not come to -/

/-- `s` with more inputs to come after those it has. -/
def State.more (s : State) (later : List Input) : State := { s with inputs := s.inputs ++ later }

section
variable {s s' : State} (later : List Input)

/-- An input is left, and the step looks at no other. -/
theorem Fires.more {i : Instr} (h : Fires i s s') (hne : s.inputs ≠ []) : Fires i (s.more later) (s'.more later) := by
  obtain ⟨t, rh, st, upc, opR, rateR, repR, codeR, fail, widx, b0, b1, c, stage0, stage1, crc, rom, trace, inputs⟩ := s
  obtain ⟨j, rest, rfl⟩ := List.exists_cons_of_ne_nil hne
  cases h with
  | waits hq hr => exact .waits hq hr
  | wStart hu hr => exact .wStart hu hr
  | acked call hr ha => exact .acked (call.with_trace_inputs trace _) hr ha
  | nacked call hr ha => exact .nacked (call.with_trace_inputs trace _) hr ha
  | midStop hu hr => exact .midStop hu hr
  | rStart hu hr => exact .rStart hu hr
  | rB0 hu hr => exact .rB0 hu hr
  | rB1 hu hr => exact .rB1 hu hr
  | rCrc hu hr => exact .rCrc hu hr
  | mismatch hu hc => exact .mismatch hu hc
  | firstWord hu hc hx hk => exact .firstWord hu hc hx hk
  | onlyWord hu hc hx hk => exact .onlyWord hu hc hx hk
  | secondWord hu hc hx => exact .secondWord hu hc hx
  | endsFailed hu hf hr => exact .endsFailed hu hf hr
  | endsDone hu hf hr => cases i <;> exact .endsDone hu hf hr

theorem StepTo.more (h : StepTo s s') (hne : s.inputs ≠ []) : StepTo (s.more later) (s'.more later) := by
  obtain ⟨t, rh, st, upc, opR, rateR, repR, codeR, fail, widx, b0, b1, c, stage0, stage1, crc, rom, trace, inputs⟩ := s
  obtain ⟨j, rest, rfl⟩ := List.exists_cons_of_ne_nil hne
  cases h with
  | reset hr => exact .reset hr
  | fires hr hl hf => exact .fires hr hl (hf.more later hne)
  | accepts hr hb hv hw => exact .accepts hr hb hv hw
  | refuses hr hb hv hw => exact .refuses hr hb hv hw
  | idles hr hb hv => exact .idles hr hb hv

/-- A run goes on after its first step. -/
theorem runFor_succ_eq_next {n : Nat} (h : runFor (n + 1) s = .next s') :
    ∃ s₁, step s = .next s₁ ∧ runFor n s₁ = .next s' := by
  rw [runFor] at h
  cases hs : step s with
  | next s₁ => rw [hs] at h; exact ⟨s₁, rfl, h⟩
  | fault r => rw [hs] at h; cases h
  | refused r => rw [hs] at h; cases h

/-- A run that does not use up its inputs looks at no others. -/
theorem Reaches.more (h : Reaches s s') : Reaches (s.more later) (s'.more later) := by
  obtain ⟨n, hrun, hlen⟩ := h
  refine ⟨n, ?_, by simp [State.more, hlen, Nat.add_assoc]⟩
  induction n generalizing s with
  | zero => cases hrun; rfl
  | succ n ih =>
    obtain ⟨s₁, hstep, hrun⟩ := runFor_succ_eq_next hrun
    have h₁ := stepTo_of_step hstep
    have hne : s.inputs ≠ [] := List.ne_nil_of_length_pos (by omega)
    rw [runFor_succ_of_next n (h₁.more later hne).step_eq]
    exact ih hrun (by rw [h₁.inputs, List.length_tail]; omega)

end

/-! ### Prompt replies -/

/-- A call that is acknowledged at once. -/
theorem call_of_ack (n : Nat) (rest : List Input) (calls : List BusCall) (entry : Input → BusCall) :
    (Progress.mk (acks (n + 1) ++ rest) calls).call entry =
      some (Input.reply true 0, ⟨acks n ++ rest, calls ++ [entry (Input.reply true 0)]⟩) := rfl

theorem readFrame_of_prompt (more : Bool) (b0 b1 c : Byte) (rest : List Input) (calls : List BusCall) :
    readFrame more ⟨frameReplies b0 b1 c ++ rest, calls⟩ =
      some (b0, b1, c, ⟨Input.quiet :: rest, calls ++ frameCalls b0 b1 c more⟩) := by
  simp [readFrame, Progress.call, awaitReply, frameReplies, frameCalls, Input.reply]

theorem rst_of_mem_acks {n : Nat} {j : Input} (h : j ∈ acks n) : j.rst = false := by
  rw [List.eq_of_mem_replicate h]
  rfl

theorem rst_of_mem_frameReplies {b0 b1 c : Byte} {j : Input} (h : j ∈ frameReplies b0 b1 c) : j.rst = false := by
  simp only [frameReplies, List.mem_cons, List.not_mem_nil, or_false] at h
  obtain rfl | rfl | rfl | rfl := h <;> rfl

section
variable {rest : List Input} {calls : List BusCall}

theorem noReset_nil : (Progress.mk [] calls).NoReset := nofun

theorem noReset_acks (n : Nat) (hr : (Progress.mk rest []).NoReset) : (Progress.mk (acks n ++ rest) calls).NoReset :=
  fun j hj => (List.mem_append.mp hj).elim rst_of_mem_acks (hr j)

theorem noReset_frame {b0 b1 c : Byte} (hr : (Progress.mk rest []).NoReset) :
    (Progress.mk (frameReplies b0 b1 c ++ rest) calls).NoReset :=
  fun j hj => (List.mem_append.mp hj).elim rst_of_mem_frameReplies (hr j)

end

section
variable {i : Instr} {s : State} {rest : List Input} {calls : List BusCall}

/-- The write phase, promptly acknowledged. -/
theorem reaches_writePhase (hu : s.upc = .wStart) (hl : s.latched = some i)
    (hr : (Progress.mk (acks 4 ++ rest) []).NoReset) :
    Reaches (s.progressed ⟨acks 4 ++ rest, []⟩)
      (({ s with upc := afterWritePhase (operationOf i) } : State).progressed ⟨rest, writePhase s.codeR⟩) := by
  have h0 := call_of_ack 3 rest [] fun _ => .start
  have h1 := call_of_ack 2 rest [.start] fun x => .addressWrite 0x44#7 x.busAckIn
  have h2 := call_of_ack 1 rest [.start, .addressWrite 0x44#7 true] fun x => .data s.codeR.high x.busAckIn
  have h3 := call_of_ack 0 rest [.start, .addressWrite 0x44#7 true, .data s.codeR.high true]
    fun x => .data s.codeR.low x.busAckIn
  have r0 := hr.call h0
  have r1 := r0.call h1
  have r2 := r1.call h2
  have started := reaches_wStart hu hl hr h0
  have addressed := reaches_acked (s := { s with upc := .wAddr }) (.wAddr rfl) hl r0 h1 rfl
  have highSent := reaches_acked (s := { s with upc := .wMsb }) (.wMsb rfl) hl r1 h2 rfl
  have lowSent := reaches_acked (s := { s with upc := .wLsb }) (.wLsb rfl) hl r2 h3 rfl
  exact ((started.trans addressed).trans highSent).trans lowSent

/-- How many replies open the read phase. -/
def openingReplies (midStop : Bool) : Nat := if midStop then 3 else 2

/-- The start and the address of the read phase, promptly acknowledged, behind the intermediate stop if there is one. -/
theorem reaches_readOpening (hu : s.upc = afterWritePhase (operationOf i)) (hpos : 0 < (operationOf i).words)
    (hl : s.latched = some i)
    (hr : (Progress.mk (acks (openingReplies (operationOf i).midStop) ++ rest) calls).NoReset) :
    Reaches (s.progressed ⟨acks (openingReplies (operationOf i).midStop) ++ rest, calls⟩)
      (({ s with upc := .rB0 } : State).progressed ⟨rest, calls ++ readOpening (operationOf i).midStop true⟩) := by
  have opened {t : State} {calls : List BusCall} (hu : t.upc = .rStart) (hl : t.latched = some i)
      (hr : (Progress.mk (acks 2 ++ rest) calls).NoReset) : Reaches (t.progressed ⟨acks 2 ++ rest, calls⟩)
        (({ t with upc := .rB0 } : State).progressed ⟨rest, calls ++ [.start] ++ [.addressRead 0x44#7 true]⟩) := by
    have h0 := call_of_ack 1 rest calls fun _ => .start
    have h1 := call_of_ack 0 rest (calls ++ [.start]) fun x => .addressRead 0x44#7 x.busAckIn
    exact (reaches_rStart hu hl hr h0).trans
      (reaches_acked (s := { t with upc := .rAddr }) (.rAddr rfl) hl (hr.call h0) h1 rfl)
  cases hm : (operationOf i).midStop with
  | false =>
    have hu' : s.upc = .rStart := by simp [hu, afterWritePhase, hm, Nat.ne_of_gt hpos]
    rw [hm] at hr
    simpa [openingReplies, readOpening] using opened hu' hl hr
  | true =>
    have hu' : s.upc = .midStop := by simp [hu, afterWritePhase, hm, Nat.ne_of_gt hpos]
    rw [hm] at hr
    have hstop := call_of_ack 2 rest calls fun _ => .stop
    have h := (reaches_midStop hu' hl hr hstop).trans (opened (t := { s with upc := .rStart }) rfl hl (hr.call hstop))
    simpa [openingReplies, readOpening] using h

/-- The closing stop of a success, promptly made. -/
theorem reaches_done_of_prompt (hu : s.upc = .finalStop) (hf : s.fail = false) (hl : s.latched = some i) :
    Reaches (s.progressed ⟨acks 1, calls⟩)
      (({ commitWords (operationOf i).commit s with upc := .done } : State).progressed ⟨[], calls ++ [.stop]⟩) :=
  reaches_done hu hf hl (p := ⟨acks 1, calls⟩) (noReset_acks 1 noReset_nil) (call_of_ack 0 [] calls fun _ => .stop)

/-- The closing stop of a failure, promptly made. -/
theorem reaches_failed_of_prompt (hu : s.upc = .finalStop) (hf : s.fail = true) (hl : s.latched = some i) :
    Reaches (s.progressed ⟨acks 1, calls⟩)
      (({ s with upc := .failed } : State).progressed ⟨[], calls ++ [.stop]⟩) :=
  reaches_failed hu hf hl (p := ⟨acks 1, calls⟩) (noReset_acks 1 noReset_nil) (call_of_ack 0 [] calls fun _ => .stop)

end

/-- The accept of a promptly answered operation is the first of its steps. -/
theorem reaches_accepted {s : State} {i : Instr} {code : Word} {inputs : List Input} (hb : s.busy = false)
    (hw : wireCode s.rom i.op (cmdRate i.cmd) (cmdRep i.cmd) = some code) (hs : s.inputs = Input.offer i.cmd :: inputs) :
    Reaches s ((s.accepted i code).progressed ⟨inputs, []⟩) := by
  refine ⟨1, ?_, by rw [hs, List.length_cons, Nat.add_comm]; rfl⟩
  rw [runFor_succ_of_next 0 (step_of_offered hb hs rfl rfl rfl hw), runFor_zero]

/-- A run on the first of the inputs, up to where the later ones are left. -/
theorem Reaches.runFor_more {s s' : State} {passed later : List Input} (hs : s.inputs = passed ++ later)
    (h : Reaches { s with inputs := passed } s') (hend : s'.inputs = []) :
    runFor passed.length s = .next { s' with inputs := later } := by
  have hmore := (h.more later).runFor_eq (n := passed.length) (by simp [State.more, hend])
  have hs' : ({ s with inputs := passed } : State).more later = s := by simp [State.more, ← hs]
  rw [hs'] at hmore
  rw [hmore, State.more, hend]
  rfl

/-! ### The operations -/

/-- Settles O35: the accept, the write phase, the closing stop. -/
theorem writeOnlyOperationsRunToDone : Obligations.WriteOnlyOperationsRunToDone := by
  intro i s code rest _ hk hb hw hs
  have hl := latched_accepted { s with inputs := Input.offer i.cmd :: acks 5 } i code
  have accept := reaches_accepted (s := { s with inputs := Input.offer i.cmd :: acks 5 }) hb hw rfl
  have write := accept.trans (reaches_writePhase (rest := acks 1) rfl hl (noReset_acks 5 noReset_nil))
  have close := write.trans (reaches_done_of_prompt (if_pos hk) rfl hl)
  have hrun := close.runFor_more (later := rest) hs rfl
  cases i with
  | softReset | setPeriodic | clearStatus | breakOp => rw [List.append_assoc]; exact hrun
  | fetch | singleShot | readStatus => cases hk

/-- The replies to a read operation that is acknowledged throughout, up to its first byte. -/
def readReplies (i : Instr) : List Input := acks (4 + openingReplies (operationOf i).midStop)

/-- The calls that it has made by then. -/
def readCalls (i : Instr) (code : Word) : List BusCall := writePhase code ++ readOpening (operationOf i).midStop true

/-- A read operation from its offer to its first byte. -/
theorem reaches_firstByte {s : State} {i : Instr} {code : Word} {rest : List Input} (hb : s.busy = false)
    (hw : wireCode s.rom i.op (cmdRate i.cmd) (cmdRep i.cmd) = some code) (hpos : 0 < (operationOf i).words)
    (hs : s.inputs = Input.offer i.cmd :: (readReplies i ++ rest)) (hr : (Progress.mk rest []).NoReset) :
    Reaches s (({ s.accepted i code with upc := .rB0 } : State).progressed ⟨rest, readCalls i code⟩) := by
  have hl := latched_accepted s i code
  have hsplit : readReplies i ++ rest = acks 4 ++ (acks (openingReplies (operationOf i).midStop) ++ rest) := by
    rw [readReplies, acks, List.replicate_add, List.append_assoc]
    rfl
  rw [hsplit] at hs
  have written := (reaches_accepted hb hw hs).trans (reaches_writePhase rfl hl (noReset_acks 4 (noReset_acks _ hr)))
  exact written.trans (reaches_readOpening rfl hpos hl (noReset_acks _ hr))

/-- FETCH and SINGLE_SHOT from the offer, over a valid first word, to the second one. -/
theorem reaches_secondByte {s : State} {i : Instr} {code : Word} {b0 b1 c : Byte} {rest : List Input} (hb : s.busy = false)
    (hw : wireCode s.rom i.op (cmdRate i.cmd) (cmdRep i.cmd) = some code) (hk : (operationOf i).words = 2)
    (hv : frameValid b0 b1 c = true)
    (hs : s.inputs = Input.offer i.cmd :: (readReplies i ++ (frameReplies b0 b1 c ++ rest)))
    (hr : (Progress.mk rest []).NoReset) :
    Reaches s (({ s.accepted i code with
      b0 := b0, b1 := b1, c := c, crc := c, stage0 := rawWord b0 b1, widx := 1#1, upc := .rB0 } : State).progressed
        ⟨rest, readCalls i code ++ frameCalls b0 b1 c true⟩) := by
  have hl := latched_accepted s i code
  have first := reaches_firstByte hb hw (by omega) hs (noReset_frame hr)
  have second := first.trans (reaches_firstWord rfl hl (noReset_frame hr) rfl hk (readFrame_of_prompt true b0 b1 c rest _) hv
    (List.cons_ne_nil _ _))
  exact second

/-- The inputs of a promptly answered measurement: its offer, and the replies. -/
def measurementInputs (i : Instr) (b0 b1 c d0 d1 d : Byte) : List Input :=
  Input.offer i.cmd :: (readReplies i ++ (frameReplies b0 b1 c ++ (frameReplies d0 d1 d ++ acks 1)))

/-- Its trace. -/
def measurementCalls (i : Instr) (code : Word) (b0 b1 c d0 d1 d : Byte) : List BusCall :=
  readCalls i code ++ frameCalls b0 b1 c true ++ frameCalls d0 d1 d false ++ [.stop]

section
variable {s : State} {i : Instr} {code : Word} {b0 b1 c d0 d1 d : Byte} {rest : List Input}

theorem measurementInputs_append :
    measurementInputs i b0 b1 c d0 d1 d ++ rest = Input.offer i.cmd ::
      (readReplies i ++ frameReplies b0 b1 c ++ frameReplies d0 d1 d ++ acks 1 ++ rest) := by
  simp [measurementInputs]

theorem append_measurementCalls (trace : List BusCall) :
    trace ++ measurementCalls i code b0 b1 c d0 d1 d =
      trace ++ writePhase code ++ readOpening (operationOf i).midStop true ++ frameCalls b0 b1 c true ++
        frameCalls d0 d1 d false ++ [.stop] := by
  simp [measurementCalls, readCalls]

/-- A measurement of two valid words commits both. -/
theorem runFor_measurement_valid (hb : s.busy = false)
    (hw : wireCode s.rom i.op (cmdRate i.cmd) (cmdRep i.cmd) = some code) (hk : (operationOf i).words = 2)
    (hv : frameValid b0 b1 c = true) (hv' : frameValid d0 d1 d = true)
    (hs : s.inputs = measurementInputs i b0 b1 c d0 d1 d ++ rest) :
    ∃ s', runFor (measurementInputs i b0 b1 c d0 d1 d).length s = .next s' ∧
      s'.sensor = ⟨rawWord b0 b1, rawWord d0 d1, s.st⟩ ∧ s'.ok = true ∧ s'.inputs = rest ∧
      s'.trace = s.trace ++ measurementCalls i code b0 b1 c d0 d1 d := by
  have hl := latched_accepted s i code
  have hr : (Progress.mk (acks 1) []).NoReset := noReset_acks 1 noReset_nil
  have second := reaches_secondByte (s := { s with inputs := measurementInputs i b0 b1 c d0 d1 d }) hb hw hk hv rfl
    (noReset_frame hr)
  have word := second.trans (reaches_secondWord rfl hl (noReset_frame hr) rfl hk
    (readFrame_of_prompt false d0 d1 d (acks 1) _) hv' (List.cons_ne_nil _ _))
  have hrun := (word.trans (reaches_done_of_prompt rfl rfl hl)).runFor_more hs rfl
  refine ⟨_, hrun, ?_, rfl, rfl, ?_⟩
  all_goals cases i with
  | fetch | singleShot => rfl
  | softReset | setPeriodic | clearStatus | breakOp | readStatus => cases hk

/-- A measurement whose second word fails its check commits neither. -/
theorem runFor_measurement_mismatch (hb : s.busy = false)
    (hw : wireCode s.rom i.op (cmdRate i.cmd) (cmdRep i.cmd) = some code) (hk : (operationOf i).words = 2)
    (hv : frameValid b0 b1 c = true) (hv' : frameValid d0 d1 d = false)
    (hs : s.inputs = measurementInputs i b0 b1 c d0 d1 d ++ rest) :
    ∃ s', runFor (measurementInputs i b0 b1 c d0 d1 d).length s = .next s' ∧ s'.sensor = s.sensor ∧ s'.done = true ∧
      s'.ok = false ∧ s'.stage0 = rawWord b0 b1 ∧ s'.trace = s.trace ++ measurementCalls i code b0 b1 c d0 d1 d := by
  have hl := latched_accepted s i code
  have hr : (Progress.mk (acks 1) []).NoReset := noReset_acks 1 noReset_nil
  have second := reaches_secondByte (s := { s with inputs := measurementInputs i b0 b1 c d0 d1 d }) hb hw hk hv rfl
    (noReset_frame hr)
  have word := second.trans (reaches_mismatch rfl hl (noReset_frame hr) (by simp [State.moreFollow, hk])
    (readFrame_of_prompt false d0 d1 d (acks 1) _) hv' (List.cons_ne_nil _ _))
  have hrun := (word.trans (reaches_failed_of_prompt rfl rfl hl)).runFor_more hs rfl
  exact ⟨_, hrun, rfl, rfl, rfl, rfl, rfl⟩

end

/-- Settles O36: FETCH without and SINGLE_SHOT with the intermediate stop. -/
theorem measurementsRunToDone : Obligations.MeasurementsRunToDone := by
  intro u s b0 b1 c d0 d1 d rest hb hv hv'
  refine ⟨fun hs => ?_, fun hs => ?_⟩
  all_goals
    obtain ⟨s', hrun, hsens, hok, hin, htr⟩ := runFor_measurement_valid hb (wireCode_of_codeEntry rfl s.rom _ _) rfl hv hv'
      (hs.trans measurementInputs_append.symm)
    exact ⟨s', hrun, hsens, hok, hin, htr.trans (append_measurementCalls _)⟩

/-- Settles O38: the same two runs, with a mismatch in the place of the second word. -/
theorem secondWordMismatchCommitsNothing : Obligations.SecondWordMismatchCommitsNothing := by
  intro u s b0 b1 c d0 d1 d rest hb hv hv'
  refine ⟨fun hs => ?_, fun hs => ?_⟩
  all_goals
    obtain ⟨s', hrun, hsens, hdone, hok, hst, htr⟩ := runFor_measurement_mismatch hb (wireCode_of_codeEntry rfl s.rom _ _) rfl
      hv hv' (hs.trans measurementInputs_append.symm)
    exact ⟨s', hrun, hsens, hdone, hok, hst, htr.trans (append_measurementCalls _)⟩

/-- Settles O37: one word, and the status register alone is committed. -/
theorem readStatusRunsToDone : Obligations.ReadStatusRunsToDone := by
  intro u s b0 b1 c rest hb hv hs
  have hw : wireCode s.rom (Instr.readStatus u).op (cmdRate (Instr.readStatus u).cmd) (cmdRep (Instr.readStatus u).cmd) =
      some 0xF32D#16 := wireCode_of_codeEntry rfl s.rom _ _
  have hl := latched_accepted s (.readStatus u) 0xF32D#16
  have hr : (Progress.mk (acks 1) []).NoReset := noReset_acks 1 noReset_nil
  have first := reaches_firstByte (rest := frameReplies b0 b1 c ++ acks 1)
    (s := { s with inputs := Input.offer (Instr.readStatus u).cmd :: (acks 6 ++ (frameReplies b0 b1 c ++ acks 1)) })
    hb hw Nat.one_pos rfl (noReset_frame hr)
  have word := first.trans (reaches_onlyWord rfl hl (noReset_frame hr) rfl rfl (readFrame_of_prompt false b0 b1 c (acks 1) _)
    hv (List.cons_ne_nil _ _))
  have hrun := (word.trans (reaches_done_of_prompt rfl rfl hl)).runFor_more (later := rest) (by simp [hs]) rfl
  have htrace : s.trace ++ (readCalls (.readStatus u) 0xF32D#16 ++ frameCalls b0 b1 c false ++ [.stop]) =
      s.trace ++ writePhase 0xF32D#16 ++ readOpening false true ++ frameCalls b0 b1 c false ++ [.stop] := by
    simp only [readCalls, List.append_assoc]
    rfl
  exact ⟨_, hrun, rfl, rfl, rfl, htrace⟩

end Sys2Proof.Machine
end

section
/-! PROOFS. The properties of the checksum (41_checksum.md R91): it is affine over exclusive or, takes every value evenly, and
catches up to three flipped bits. -/

namespace Sys2Proof.Machine

open Sys2Proof.Statements

/-! ### The rounds are linear -/

theorem crcRound_xor (a b : Byte) : crcRound (a ^^^ b) = crcRound a ^^^ crcRound b := by
  have shift : (a ^^^ b) <<< 1 = a <<< 1 ^^^ b <<< 1 := BitVec.shiftLeft_xor_distrib a b 1
  unfold crcRound
  rw [shift, BitVec.getLsbD_xor]
  cases a.getLsbD 7 <;> cases b.getLsbD 7
  · rfl
  · exact BitVec.xor_assoc _ _ _
  · show _ = a <<< 1 ^^^ Config.crcPoly ^^^ b <<< 1
    ac_rfl
  · calc a <<< 1 ^^^ b <<< 1
      _ = a <<< 1 ^^^ b <<< 1 ^^^ (Config.crcPoly ^^^ Config.crcPoly) := by rw [LawfulXor.xor_self, xor_zero]
      _ = (a <<< 1 ^^^ Config.crcPoly) ^^^ (b <<< 1 ^^^ Config.crcPoly) := by ac_rfl

theorem crcRounds_xor (n : Nat) (a b : Byte) : crcRounds n (a ^^^ b) = crcRounds n a ^^^ crcRounds n b := by
  induction n generalizing a b with
  | zero => rfl
  | succ n ih => rw [crcRounds, crcRound_xor, ih]; rfl

/-- The part of the checksum that depends on the word: the high byte goes through sixteen rounds, the low byte through eight. -/
def crcLinear (w : Word) : Byte := crcRounds 8 (crcRounds 8 w.high) ^^^ crcRounds 8 w.low

theorem crcLinear_xor (a b : Word) : crcLinear (a ^^^ b) = crcLinear a ^^^ crcLinear b := by
  have high : (a ^^^ b).high = a.high ^^^ b.high := BitVec.extractLsb'_xor
  have low : (a ^^^ b).low = a.low ^^^ b.low := BitVec.extractLsb'_xor
  simp only [crcLinear, high, low, crcRounds_xor]
  ac_rfl

/-- The initial register, after all sixteen rounds. -/
theorem crcRounds_init : crcRounds 8 (crcRounds 8 Config.crcInit) = 0x81#8 := by decide +kernel

theorem crc8_eq_crcLinear (w : Word) : crc8 w = 0x81#8 ^^^ crcLinear w := by
  rw [crc8, crcByte, crcByte, crcRounds_xor, crcRounds_xor, crcRounds_xor, crcRounds_init, crcLinear, BitVec.xor_assoc]

/-! ### A linear function by its values on single bits -/

/-- The bits of `w` at the positions from `i` on, `n` of them. -/
def bitsFrom (w : Word) : Nat → Nat → Word
  | _, 0 => 0
  | i, n + 1 => (if w.getLsbD i then BitVec.twoPow 16 i else 0) ^^^ bitsFrom w (i + 1) n

theorem getLsbD_bitsFrom (w : Word) (i n k : Nat) (hk : k < 16) :
    (bitsFrom w i n).getLsbD k = (decide (i ≤ k ∧ k < i + n) && w.getLsbD k) := by
  induction n generalizing i with
  | zero =>
    simp [bitsFrom]
  | succ n ih =>
    rw [bitsFrom, BitVec.getLsbD_xor, ih]
    by_cases hik : i = k
    · subst hik
      cases w.getLsbD i <;> simp [hk]
    · have : (i ≤ k ∧ k < i + (n + 1)) ↔ (i + 1 ≤ k ∧ k < i + 1 + n) := by omega
      have single : (if w.getLsbD i then BitVec.twoPow 16 i else 0 : Word).getLsbD k = false := by
        split <;> simp [hik]
      simp only [this, single, Bool.false_xor]

theorem bitsFrom_all (w : Word) : bitsFrom w 0 16 = w := by
  apply BitVec.eq_of_getLsbD_eq
  intro k hk
  rw [getLsbD_bitsFrom w 0 16 k hk, decide_eq_true (by omega), Bool.true_and]

theorem xorOfSetBits_of_linear {f : Word → Byte} (hf : ∀ a b, f (a ^^^ b) = f a ^^^ f b) (w : Word) (i n : Nat) :
    xorOfSetBits w i ((List.range' i n).map fun k => f (BitVec.twoPow 16 k)) = f (bitsFrom w i n) := by
  have zero : f 0 = 0 := by simpa using hf 0 0
  induction n generalizing i with
  | zero => exact zero.symm
  | succ n ih =>
    rw [List.range'_succ, List.map_cons, xorOfSetBits, ih, bitsFrom, hf]
    split
    · rfl
    · rw [zero]

/-- The spec's list is the checksum's linear part on the sixteen single bits. -/
theorem bitContribution_eq : bitContribution = (List.range' 0 16).map fun k => crcLinear (BitVec.twoPow 16 k) := by
  decide +kernel

/-- Settles O58: the linear part is additive, and is the sum of its values on the single bits. -/
theorem checksumIsAffine : Obligations.ChecksumIsAffine := by
  refine ⟨fun a b => ?_, fun w => ?_⟩
  · have zero : crcLinear 0 = 0 := by simpa using crcLinear_xor 0 0
    calc crc8 (a ^^^ b)
      _ = 0x81#8 ^^^ (crcLinear a ^^^ crcLinear b) ^^^ (0x81#8 ^^^ 0x81#8) := by
        rw [crc8_eq_crcLinear, crcLinear_xor, LawfulXor.xor_self, xor_zero]
      _ = (0x81#8 ^^^ crcLinear a) ^^^ (0x81#8 ^^^ crcLinear b) ^^^ 0x81#8 := by ac_rfl
      _ = crc8 a ^^^ crc8 b ^^^ crc8 0 := by
        rw [crc8_eq_crcLinear a, crc8_eq_crcLinear b, crc8_eq_crcLinear 0, zero, xor_zero]
  · rw [crc8_eq_crcLinear, bitContribution_eq, xorOfSetBits_of_linear crcLinear_xor, bitsFrom_all]

/-! ### Every value evenly -/

theorem crcRound_injective : Function.Injective crcRound := by
  have kernel : ∀ r : Byte, crcRound r = 0 → r = 0 := by decide
  intro a b h
  have : a ^^^ b = 0 := kernel _ (by rw [crcRound_xor, h]; simp)
  simpa using this

theorem crcRounds_bijective (n : Nat) : Function.Bijective (crcRounds n) := by
  induction n with
  | zero => exact Function.bijective_id
  | succ n ih => exact ih.comp (Finite.injective_iff_bijective.mp crcRound_injective)

/-- Settles O59: after the high byte the register is fixed, and the last eight rounds are a bijection. -/
theorem checksumHitsEveryValueEvenly : Obligations.ChecksumHitsEveryValueEvenly := by
  intro high c
  have crc8_append (low : Byte) : crc8 (high ++ low) = crcRounds 8 (crcByte Config.crcInit high ^^^ low) := by
    have h := rawWord_high high low
    have l := rawWord_low high low
    rw [rawWord] at h l
    rw [crc8, h, l, crcByte]
  obtain ⟨r, hr⟩ := (crcRounds_bijective 8).surjective c
  refine ⟨crcByte Config.crcInit high ^^^ r, ?_, fun low' h => ?_⟩
  · rw [crc8_append, xor_cancel_left, hr]
  · have heq := (crcRounds_bijective 8).injective ((crc8_append low').symm.trans (h.trans hr.symm))
    rw [← heq, xor_cancel_left]

/-! ### Flipped bits -/

/-- The syndrome of a frame: linear, and 0x81 exactly for the frames that pass. -/
def syndrome (f : BitVec 24) : Byte :=
  crcRounds 8 (crcRounds 8 (f.extractLsb' 16 8)) ^^^ crcRounds 8 (f.extractLsb' 8 8) ^^^ f.extractLsb' 0 8

theorem syndrome_xor (f g : BitVec 24) : syndrome (f ^^^ g) = syndrome f ^^^ syndrome g := by
  simp only [syndrome, BitVec.extractLsb'_xor, crcRounds_xor]
  ac_rfl

theorem framePasses_iff (f : BitVec 24) : framePasses f = true ↔ syndrome f = 0x81#8 := by
  have hcrc : crc8 (rawWord (f.extractLsb' 16 8) (f.extractLsb' 8 8)) = 0x81#8 ^^^ (syndrome f ^^^ f.extractLsb' 0 8) := by
    rw [crc8_eq_crcLinear, crcLinear, rawWord_high, rawWord_low, syndrome, xor_cancel_right]
  rw [framePasses, frameValid_iff, hcrc, ← BitVec.xor_assoc, xor_right_eq_self_iff, xor_eq_zero_iff, eq_comm]

/-- What flipping the bit at a position does to the syndrome. -/
def column (p : Fin 24) : Byte := syndrome (BitVec.twoPow 24 p.val)

/-- What flipping the bits at the given positions does to it. -/
def columnSum : List (Fin 24) → Byte
  | [] => 0
  | p :: ps => column p ^^^ columnSum ps

theorem syndrome_flipBits (f : BitVec 24) (ps : List (Fin 24)) : syndrome (flipBits f ps) = syndrome f ^^^ columnSum ps := by
  induction ps generalizing f with
  | nil => simp [flipBits, columnSum]
  | cons p ps ih => rw [flipBits, ih, syndrome_xor, BitVec.xor_assoc]; rfl

/-- Flipped bits go unnoticed exactly if their columns cancel. -/
theorem framePasses_flipBits {f : BitVec 24} (h : framePasses f = true) (ps : List (Fin 24)) :
    framePasses (flipBits f ps) = true ↔ columnSum ps = 0 := by
  rw [framePasses_iff, syndrome_flipBits, (framePasses_iff f).mp h, xor_left_eq_self_iff]

/-- Whether an odd number of the first `n` bits of a byte are set. -/
def parityBelow (b : Byte) : Nat → Bool
  | 0 => false
  | n + 1 => parityBelow b n ^^ b.getLsbD n

theorem parityBelow_xor (a b : Byte) (n : Nat) : parityBelow (a ^^^ b) n = (parityBelow a n ^^ parityBelow b n) := by
  induction n with
  | zero => rfl
  | succ n ih =>
    rw [parityBelow, parityBelow, parityBelow, ih, BitVec.getLsbD_xor]
    simp [Bool.xor_left_comm]

/-- Whether a byte has an odd number of set bits. -/
def parity (b : Byte) : Bool := parityBelow b 8

theorem parity_xor (a b : Byte) : parity (a ^^^ b) = (parity a ^^ parity b) := parityBelow_xor a b 8

/-- x + 1 divides the polynomial, so every single bit flips the parity of the syndrome. -/
theorem parity_column (p : Fin 24) : parity (column p) = true := by
  revert p; decide +kernel

theorem parity_columnSum (ps : List (Fin 24)) : parity (columnSum ps) = decide (ps.length % 2 = 1) := by
  induction ps with
  | nil => rfl
  | cons p ps ih =>
    rw [columnSum, parity_xor, parity_column, ih, List.length_cons]
    rcases Nat.mod_two_eq_zero_or_one ps.length with h | h <;> simp [h, Nat.add_mod]

/-- No two single bits change the syndrome alike. -/
theorem column_injective : Function.Injective column := by
  have distinct : ∀ p q : Fin 24, column p = column q → p = q := by decide +kernel
  exact fun p q => distinct p q

/-- The columns of up to three bits do not cancel: of one or three by their parity, of two since they differ. -/
theorem columnSum_ne_zero {ps : List (Fin 24)} (hn : ps.Nodup) (h1 : 1 ≤ ps.length) (h3 : ps.length ≤ 3) :
    columnSum ps ≠ 0 := by
  intro h
  have hp := parity_columnSum ps
  rw [h] at hp
  have even : ps.length % 2 ≠ 1 := of_decide_eq_false hp.symm
  obtain ⟨p, q, rfl⟩ := List.length_eq_two.mp (show ps.length = 2 by omega)
  have hpq : p ≠ q := by simpa using hn
  exact hpq (column_injective (by simpa [columnSum] using h))

/-- Settles O60: the pattern of four is the polynomial itself, x⁸+x⁵+x⁴+1. -/
theorem checksumCatchesUpToThreeFlippedBits : Obligations.ChecksumCatchesUpToThreeFlippedBits := by
  refine ⟨fun f ps hf hn h1 h3 => ?_, [0, 4, 5, 8], by decide, rfl, fun f hf => ?_⟩
  · rw [← Bool.not_eq_true, framePasses_flipBits hf]
    exact columnSum_ne_zero hn h1 h3
  · exact (framePasses_flipBits hf _).mpr (by decide +kernel)

end Sys2Proof.Machine
end
